-- ==== Sys2Proof/Word.lean ====
section
/-! DEFINITION. The word types of the chain: bytes and two-byte fields (12_wire_formats.md). -/

namespace Sys2Proof

/-- A byte of the chain. -/
abbrev Byte := BitVec 8

/-- A field of two bytes, and the time counter (R164). -/
abbrev Half := BitVec 16

end Sys2Proof
end

