-- ==== Sys2Proof/Config.lean ====
section
/-! DEFINITION. What is fixed for the part: its tables and settings by name, and its sizes.
The spec leaves no computed value open, so there is no free value here (INVENTORY.md). -/

namespace Sys2Proof

/-- The seven loadable tables, in id order (R47). -/
inductive Table
  | glyph | route | dim | keymap | scan | light | tone
  deriving DecidableEq, Repr

/-- The 24 settings, in id order (12_wire_formats.md section 12.6). -/
inductive Setting
  | phases | phaseTime | display | brightSource | brightLevel
  | blinkAOn | blinkAOff | blinkBOn | blinkBOff | fallback
  | scanMode | pressCount | releaseCount | repeatDelay | repeatInterval | wakeByKey
  | lossTimeout | lossTone | gatherQuota | resendAfter | eventMask
  | lightMode | lightWindow | clickPattern
  deriving DecidableEq, Repr

/-- Most bytes a frame slot holds (R168, R170). -/
abbrev Config.slotBytes : Nat := 254

/-- Most entries of the event queue, and most of them ordinary (R99). -/
abbrev Config.queuePlaces : Nat := 32
abbrev Config.ordinaryPlaces : Nat := 31

/-- The destination of a broadcast (00_scope.md, Conventions). -/
abbrev Config.broadcastAddress : Byte := 63

/-- The silence time holds here (R158). -/
abbrev Config.silenceLimit : Nat := 25500

end Sys2Proof
end

