-- ==== Sys2Proof/Syntax.lean ====
section
/-! DEFINITION. The commands of the block: one constructor for each row of spec/opcode_table.json,
with the row's inputs as operands. -/

namespace Sys2Proof

/-- A symbol of the chain, as the receiver classifies it (R167). -/
inductive Symbol
  | data (b : Byte)
  | sd
  | ed
  | ab
  | idle
  | invalid
  deriving DecidableEq, Repr

/-- How a frame ends (R168); a cut is by an IDLE or by an SD, which opens the next frame. -/
inductive FrameEnd
  | closed
  | aborted
  | cutByIdle
  | cutBySd
  | oversize
  deriving DecidableEq, Repr

/-- The blink generators A and B (R33). -/
inductive BlinkGen
  | a
  | b
  deriving DecidableEq, Repr

/-- The order in which the Light Sense Unit, the Cell Store and the Table Store submit their events at one
sweep start. R103 leaves it open (assumption 8), so the sender of SWEEP_START chooses it. -/
inductive SubmitOrder
  | lightCellsTables
  | lightTablesCells
  | cellsLightTables
  | cellsTablesLight
  | tablesLightCells
  | tablesCellsLight
  deriving DecidableEq, Repr

/-- The sample of a sweep's last sense window, when it is taken in the sweep start that follows on it: the returns read,
and after how many of the three blocks above (the first, the first two, or all) the Key Scanner has its turn (R71, R103;
assumption 8). -/
structure LateSample where
  returns : Byte
  after : Fin 3
  deriving DecidableEq, Repr

/-- What the sender of SWEEP_START chooses: the order of the blocks, and `late`, the sample of the sense window that ends
there, when KEY_SAMPLE has not taken it (assumption 8). -/
structure SweepOrder where
  blocks : SubmitOrder
  late : Option LateSample
  deriving DecidableEq, Repr

/-- The three bytes of a cell record on the chain (section 12.4). -/
structure RecordBytes where
  code : Byte
  attr : Byte
  lead : Byte
  deriving DecidableEq, Repr

/-- The commands. Each constructor is a row of the opcode table; LAWS.json gives the row's mnemonic. -/
inductive Instr
  /-- R147: RST_N is asserted. -/
  | hardReset
  /-- R45: RST_N is released. -/
  | resetRelease
  /-- R181: the symbol that ends the frame repeated in BYPASS_TAIL arrives. -/
  | bypassTailEnd (e : FrameEnd)
  /-- R172: the symbol that ends the frame received in RELAY arrives. -/
  | frameEnd (e : FrameEnd)
  /-- R107: the aging of a gather pass brings the head to RESEND_AFTER. -/
  | goBack
  /-- R177: `idles` more IDLE symbols have been sent; the transmitter begins the earliest READY slot if it may. -/
  | transmitStart (idles : Nat)
  /-- R177: the end mark of the slot being sent has left. -/
  | transmitEnd
  /-- R187: the next item of the frame in process is malformed. -/
  | malformedItem
  /-- R188: the next item has an unknown code, an unsuitable length or reserved bits set. -/
  | unknownRequest (code : Byte) (params : List Byte)
  /-- R195. -/
  | readStatus (clearErrors : Bool)
  /-- R197. -/
  | settingRead (first count : Byte)
  /-- R198: pairs of setting id and value. -/
  | settingWrite (pairs : List (Byte × Byte))
  /-- R165. -/
  | setTime (time : Half)
  /-- R154. -/
  | quiesce
  /-- R155. -/
  | resume
  /-- R192: the scope byte as sent. -/
  | nodeReset (scope : Byte)
  /-- R192: a due NODE_RESET takes effect. -/
  | resetEffect
  /-- R11: the bytes after `first`, as sent. -/
  | writeCells (first : Byte) (records : List Byte)
  /-- R12. -/
  | fillCells (first count stride : Byte) (record : RecordBytes)
  /-- R14: every parameter byte as sent. -/
  | readCells (plane first count option : Byte)
  /-- R16. -/
  | commit (tag : Byte)
  /-- R51: the entry bytes as sent. -/
  | tableLoad (table : Byte) (first : Half) (entries : List Byte)
  /-- R53. -/
  | tableRead (table copy : Byte) (first : Half) (count : Byte)
  /-- R55: bit n for table id n. -/
  | tableActivate (set : BitVec 7)
  /-- R54. -/
  | tableAbandon (set : BitVec 7)
  /-- R110. -/
  | ackEvents (seq : Byte)
  /-- R139. -/
  | toneStart (pattern : Byte)
  /-- R140. -/
  | toneStop
  /-- R25. -/
  | sweepStart (order : SweepOrder)
  /-- R33: the half of one generator reaches its length. -/
  | blinkHalfChange (gen : BlinkGen)
  /-- R24. -/
  | phaseStart
  /-- R27. -/
  | litWindowEnd
  /-- R28. -/
  | senseWindowStart
  /-- R71: the sense window ends; `returns` is K1..K8 as read, K1 in bit 0, 1 for closed. -/
  | keySample (returns : Byte)
  /-- R80: a closed sample of one key, the last of its run. -/
  | becomingDown (key : Fin 128)
  /-- R81: an open sample of one key, the last of its run. -/
  | becomingUp (key : Fin 128)
  /-- R82: a sample of one held key at which a repeat is due. -/
  | keyRepeat (key : Fin 128) (closed : Bool)
  /-- R156: the closed any-key sample that makes the any-key record DOWN. -/
  | wakeReport
  /-- R160. -/
  | linkLossExpiry
  /-- R136: the half-period in progress ends. -/
  | halfPeriodEnd
  /-- R136: the segment in progress ends. -/
  | segmentEnd
  /-- R119: `us` microseconds pass on the measurement and then LS rises. -/
  | lsRisingEdge (us : Nat)
  /-- R120: the PERIOD count reaches 65535. -/
  | periodOverflow
  /-- R122: the window's last sweep start, as the Light Sense Unit takes it. -/
  | windowComplete
  /-- R171: an SD is received. -/
  | frameOpen
  /-- R171: a data or invalid symbol is received. -/
  | byteReceived (sym : Symbol)
  /-- R180: a symbol is received in BYPASS. -/
  | bypassRepeat (sym : Symbol)
  /-- R164: one millisecond of REFCLK passes. -/
  | millisecondTick
  /-- R147: the supply falls below its operating range. -/
  | supplyLoss
  /-- R179: the supply reaches its operating range. -/
  | supplyInRange
  deriving DecidableEq, Repr

end Sys2Proof
end

