-- ==== Sys2Proof/WellFormed.lean ====
section
/-! DEFINITION. Which commands are well formed: those whose operands the chain's formats and the pins can
carry (12_wire_formats.md). -/

namespace Sys2Proof

/-- No reserved position of a cell record is 1: bits 5..7 of byte 1, and bits 0..6 of byte 2 when its bit 7 is 0
(section 12.4). -/
def RecordBytes.plain (r : RecordBytes) : Bool :=
  r.attr &&& 0xE0 == 0 && (r.lead.getLsbD 7 || r.lead == 0)

/-- The whole records at the front of a run of record bytes hold no reserved bit; a part of a record at the end
is not examined (assumption 13). -/
def recordsPlain : List Byte → Bool
  | code :: attr :: lead :: rest => (RecordBytes.mk code attr lead).plain && recordsPlain rest
  | _ => true

/-- A symbol that stands for a byte of a frame: data or invalid (R171). -/
def Symbol.isByte : Symbol → Bool
  | .data _ => true
  | .invalid => true
  | .sd => false
  | .ed => false
  | .ab => false
  | .idle => false

/-- A command is well formed when an item on the chain (an item length is one byte, R184) or an event at the pins
can carry its operands. -/
def Instr.wellFormed : Instr → Bool
  | .unknownRequest _ params => params.length ≤ 255
  | .settingWrite pairs => 1 ≤ pairs.length && pairs.length ≤ 127
  | .writeCells _ records => records.length ≤ 254 && recordsPlain records
  | .fillCells _ _ _ record => record.plain
  | .tableLoad _ _ entries => entries.length ≤ 252
  | .byteReceived sym => sym.isByte
  | .lsRisingEdge us => us ≤ 65534
  | .hardReset | .resetRelease | .bypassTailEnd _ | .frameEnd _ | .goBack | .transmitStart _
  | .transmitEnd | .malformedItem | .readStatus _ | .settingRead _ _ | .setTime _ | .quiesce
  | .resume | .nodeReset _ | .resetEffect | .readCells _ _ _ _ | .commit _ | .tableRead _ _ _ _
  | .tableActivate _ | .tableAbandon _ | .ackEvents _ | .toneStart _ | .toneStop | .sweepStart _
  | .blinkHalfChange _ | .phaseStart | .litWindowEnd | .senseWindowStart | .keySample _
  | .becomingDown _ | .becomingUp _ | .keyRepeat _ _ | .wakeReport | .linkLossExpiry
  | .halfPeriodEnd | .segmentEnd | .periodOverflow | .windowComplete | .frameOpen
  | .bypassRepeat _ | .millisecondTick | .supplyLoss | .supplyInRange => true

end Sys2Proof
end

