-- ==== Sys2Proof/Decode.lean ====
section
/-! DEFINITION. The node's own decoder: from the code and parameter bytes of a request item to the command it
is (R188, R199, section 12.3), and the encoder beside it. The opcode table gives no row any bits, so
`decodeTableWord` answers none. -/

namespace Sys2Proof

/-- A two-byte field, most significant byte first (12_wire_formats.md). -/
def joinBytes (hi lo : Byte) : Half := hi ++ lo

/-- The two bytes of a field in the order they are sent. -/
def hiByte (h : Half) : Byte := h.extractLsb' 8 8
def loByte (h : Half) : Byte := h.extractLsb' 0 8

/-- Pairs of bytes: none for an odd number of bytes. -/
def pairsOf : List Byte → Option (List (Byte × Byte))
  | [] => some []
  | [_] => none
  | id :: value :: rest => (pairsOf rest).map ((id, value) :: ·)

/-- The bytes of pairs, in order. -/
def bytesOfPairs : List (Byte × Byte) → List Byte
  | [] => []
  | (id, value) :: rest => id :: value :: bytesOfPairs rest

/-- The form check of R188 for a request that takes no parameter. -/
def noParams (c : Instr) : List Byte → Option Instr
  | [] => some c
  | _ :: _ => none

/-- The form check of R188 for a request of one byte. -/
def oneParam (c : Byte → Instr) : List Byte → Option Instr
  | [p] => some (c p)
  | _ => none

/-- A set of table ids in one byte; bit 7 is reserved (section 12.3). -/
def setParam (c : BitVec 7 → Instr) : List Byte → Option Instr
  | [p] => if p.getLsbD 7 then none else some (c (p.extractLsb' 0 7))
  | _ => none

/-- READ_STATUS: bit 0 clear-errors, bits 1..7 reserved. -/
def readStatusForm : List Byte → Option Instr
  | [p] => if p &&& 0xFE = 0 then some (.readStatus (p.getLsbD 0)) else none
  | _ => none

def settingReadForm : List Byte → Option Instr
  | [first, count] => some (.settingRead first count)
  | _ => none

/-- SETTING_WRITE: a non-zero even number of bytes (R188). -/
def settingWriteForm : List Byte → Option Instr
  | [] => none
  | p :: rest => (pairsOf (p :: rest)).map .settingWrite

def setTimeForm : List Byte → Option Instr
  | [hi, lo] => some (.setTime (joinBytes hi lo))
  | _ => none

/-- WRITE_CELLS: one byte or more; whether the rest divides into records is the owner's to judge (R11, R188). -/
def writeCellsForm : List Byte → Option Instr
  | [] => none
  | first :: records => if recordsPlain records then some (.writeCells first records) else none

def fillCellsForm : List Byte → Option Instr
  | [first, count, stride, code, attr, lead] =>
    if (RecordBytes.mk code attr lead).plain then some (.fillCells first count stride ⟨code, attr, lead⟩)
    else none
  | _ => none

def readCellsForm : List Byte → Option Instr
  | [plane, first, count, option] => some (.readCells plane first count option)
  | _ => none

/-- TABLE_LOAD: three bytes or more; the entry bytes are the owner's to judge (R51, R188). -/
def tableLoadForm : List Byte → Option Instr
  | table :: hi :: lo :: entries => some (.tableLoad table (joinBytes hi lo) entries)
  | _ => none

def tableReadForm : List Byte → Option Instr
  | [table, copy, hi, lo, count] => some (.tableRead table copy (joinBytes hi lo) count)
  | _ => none

/-- The request a code and its parameter bytes are (section 12.3), or none where R188 answers BAD_REQUEST: an
unknown code, an unsuitable length, or a reserved bit set. -/
def requestOf (code : Byte) (params : List Byte) : Option Instr :=
  if code = 0x01 then readStatusForm params
  else if code = 0x02 then settingReadForm params
  else if code = 0x03 then settingWriteForm params
  else if code = 0x04 then setTimeForm params
  else if code = 0x10 then noParams .quiesce params
  else if code = 0x11 then noParams .resume params
  else if code = 0x12 then oneParam .nodeReset params
  else if code = 0x20 then writeCellsForm params
  else if code = 0x21 then fillCellsForm params
  else if code = 0x22 then readCellsForm params
  else if code = 0x23 then oneParam .commit params
  else if code = 0x30 then tableLoadForm params
  else if code = 0x31 then tableReadForm params
  else if code = 0x32 then setParam .tableActivate params
  else if code = 0x33 then setParam .tableAbandon params
  else if code = 0x40 then oneParam .ackEvents params
  else if code = 0x41 then oneParam .toneStart params
  else if code = 0x42 then noParams .toneStop params
  else none

/-- The code and parameter bytes the master writes for a request (section 12.3); none for a command that is not a
request. -/
def requestItem : Instr → Option (Byte × List Byte)
  | .readStatus clear => some (0x01, [if clear then 1 else 0])
  | .settingRead first count => some (0x02, [first, count])
  | .settingWrite pairs => some (0x03, bytesOfPairs pairs)
  | .setTime time => some (0x04, [hiByte time, loByte time])
  | .quiesce => some (0x10, [])
  | .resume => some (0x11, [])
  | .nodeReset scope => some (0x12, [scope])
  | .writeCells first records => some (0x20, first :: records)
  | .fillCells first count stride r => some (0x21, [first, count, stride, r.code, r.attr, r.lead])
  | .readCells plane first count option => some (0x22, [plane, first, count, option])
  | .commit tag => some (0x23, [tag])
  | .tableLoad table first entries => some (0x30, table :: hiByte first :: loByte first :: entries)
  | .tableRead table copy first count => some (0x31, [table, copy, hiByte first, loByte first, count])
  | .tableActivate set => some (0x32, [set.setWidth 8])
  | .tableAbandon set => some (0x33, [set.setWidth 8])
  | .ackEvents seq => some (0x40, [seq])
  | .toneStart pattern => some (0x41, [pattern])
  | .toneStop => some (0x42, [])
  | .hardReset | .resetRelease | .bypassTailEnd _ | .frameEnd _ | .goBack | .transmitStart _
  | .transmitEnd | .malformedItem | .unknownRequest _ _ | .resetEffect | .sweepStart _
  | .blinkHalfChange _ | .phaseStart | .litWindowEnd | .senseWindowStart | .keySample _
  | .becomingDown _ | .becomingUp _ | .keyRepeat _ _ | .wakeReport | .linkLossExpiry
  | .halfPeriodEnd | .segmentEnd | .lsRisingEdge _ | .periodOverflow | .windowComplete
  | .frameOpen | .byteReceived _ | .bypassRepeat _ | .millisecondTick | .supplyLoss
  | .supplyInRange => none

/-- The requests a broadcast executes (R193, the table of R191). -/
def Instr.inBroadcast : Instr → Bool
  | .commit _ | .setTime _ | .settingWrite _ | .quiesce | .resume | .nodeReset _ | .toneStart _
  | .toneStop | .tableActivate _ => true
  | .hardReset | .resetRelease | .bypassTailEnd _ | .frameEnd _ | .goBack | .transmitStart _
  | .transmitEnd | .malformedItem | .unknownRequest _ _ | .readStatus _ | .settingRead _ _
  | .resetEffect | .writeCells _ _ | .fillCells _ _ _ _ | .readCells _ _ _ _ | .tableLoad _ _ _
  | .tableRead _ _ _ _ | .tableAbandon _ | .ackEvents _ | .sweepStart _ | .blinkHalfChange _
  | .phaseStart | .litWindowEnd | .senseWindowStart | .keySample _ | .becomingDown _
  | .becomingUp _ | .keyRepeat _ _ | .wakeReport | .linkLossExpiry | .halfPeriodEnd | .segmentEnd
  | .lsRisingEdge _ | .periodOverflow | .windowComplete | .frameOpen | .byteReceived _
  | .bypassRepeat _ | .millisecondTick | .supplyLoss | .supplyInRange => false

/-- spec/opcode_table.json gives no row of this block any bits (98_reader.md counts them), so no word spells a
command. -/
def decodeTableWord (_nbits _w : Nat) : Option Instr := none

end Sys2Proof
end

