-- ==== Sys2Proof/Machine/Defaults.lean ====
section
/-! DEFINITION. The default contents of the seven tables (R65 to R67) and of the 24 settings (the table of R198). -/

namespace Sys2Proof.Machine

/-- A vector of bytes from the list that writes it out. -/
def bytesVector (n : Nat) (l : List Byte) (h : l.length = n) : Vector Byte n := ⟨⟨l⟩, h⟩

/-- The pattern that lights the lines listed: line n in bit n (section 12.4). -/
def litLines : List Nat → Byte
  | [] => 0
  | n :: rest => (1#8 <<< n) ||| litLines rest

/-- R65, entries 0..16. -/
def defaultGlyphs : List Byte :=
  [litLines [0, 1, 2, 3, 4, 5], litLines [1, 2], litLines [0, 1, 3, 4, 6], litLines [0, 1, 2, 3, 6],
    litLines [1, 2, 5, 6], litLines [0, 2, 3, 5, 6], litLines [0, 2, 3, 4, 5, 6], litLines [0, 1, 2],
    litLines [0, 1, 2, 3, 4, 5, 6], litLines [0, 1, 2, 3, 5, 6], litLines [0, 1, 2, 4, 5, 6],
    litLines [2, 3, 4, 5, 6], litLines [0, 3, 4, 5], litLines [1, 2, 3, 4, 6], litLines [0, 3, 4, 5, 6],
    litLines [0, 4, 5, 6], litLines [6]]

/-- R65. -/
def defaultGlyph : Vector Byte 64 := bytesVector 64 (defaultGlyphs ++ List.replicate 47 0) (by simp [defaultGlyphs])

/-- R66: every entry UNROUTED with every field 0. -/
def defaultRoute : Vector Byte 768 := bytesVector 768 (List.replicate 768 0) (List.length_replicate ..)

/-- R66: 4 × n for levels 0..14, 56 for level 15. -/
def defaultDim : Vector Byte 16 :=
  bytesVector 16 [0, 4, 8, 12, 16, 20, 24, 28, 32, 36, 40, 44, 48, 52, 56, 56] rfl

/-- KEYMAP entries `k`, `k + 1`, …: code the key number, enabled on, the other flags off (R66). -/
def keymapFrom : Nat → Nat → List Byte
  | _, 0 => []
  | k, n + 1 => BitVec.ofNat 8 k :: 1 :: keymapFrom (k + 1) n

theorem keymapFrom_length (k n : Nat) : (keymapFrom k n).length = 2 * n := by
  induction n generalizing k with
  | zero => rfl
  | succ n ih => simp [keymapFrom, ih]; omega

/-- R66. -/
def defaultKeymap : Vector Byte 256 := bytesVector 256 (keymapFrom 0 128) (keymapFrom_length 0 128)

/-- R66: 16 steps, step n the set of column n. -/
def defaultScan : Vector Byte 34 :=
  bytesVector 34
    ([0, 16] ++ [0, 1, 0, 2, 0, 4, 0, 8, 0, 16, 0, 32, 0, 64, 0, 128] ++
      [1, 0, 2, 0, 4, 0, 8, 0, 16, 0, 32, 0, 64, 0, 128, 0]) rfl

/-- R66: no threshold active, invert off, H and every threshold 0. -/
def defaultLight : Vector Byte 34 := bytesVector 34 (List.replicate 34 0) (List.length_replicate ..)

/-- A TONE entry: carrier half-period, repeats, and the listed segments (on, duration); the segments after them are
off with duration 1 (R67, section 12.7). -/
def toneEntry (half : Nat) (repeats : Byte) (segments : List (Bool × Byte)) : List Byte :=
  [(BitVec.ofNat 16 half).extractLsb' 8 8, (BitVec.ofNat 16 half).extractLsb' 0 8,
    BitVec.ofNat 8 segments.length, repeats] ++
  segments.flatMap (fun s => [if s.1 then 1 else 0, s.2]) ++
  (List.replicate (8 - segments.length) [(0 : Byte), 1]).flatten

/-- R67. -/
def defaultTones : List Byte :=
  toneEntry 250 1 [(true, 2)] ++
  toneEntry 500 0 [(true, 20), (false, 20)] ++
  toneEntry 1000 1 [(true, 10)] ++
  toneEntry 400 1 [(true, 10)] ++
  toneEntry 200 1 [(true, 10)] ++
  toneEntry 250 1 [(true, 8), (false, 8), (true, 8)] ++
  toneEntry 500 1 [(true, 100)] ++
  toneEntry 625 0 [(true, 50), (false, 50)]

/-- R67. -/
def defaultTone : Vector Byte 160 := bytesVector 160 defaultTones (by simp [defaultTones, toneEntry])

/-- The settings in id order (section 12.6). -/
def allSettings : List Setting :=
  [.phases, .phaseTime, .display, .brightSource, .brightLevel, .blinkAOn, .blinkAOff, .blinkBOn,
    .blinkBOff, .fallback, .scanMode, .pressCount, .releaseCount, .repeatDelay, .repeatInterval,
    .wakeByKey, .lossTimeout, .lossTone, .gatherQuota, .resendAfter, .eventMask, .lightMode,
    .lightWindow, .clickPattern]

/-- The default of each setting in its encoding on the chain (the table of R198, section 12.6). -/
def settingDefault : Setting → Byte
  | .phases => 4
  | .phaseTime => 125
  | .display => 0
  | .brightSource => 0
  | .brightLevel => 8
  | .blinkAOn => 125
  | .blinkAOff => 125
  | .blinkBOn => 31
  | .blinkBOff => 31
  | .fallback => 1
  | .scanMode => 0
  | .pressCount => 3
  | .releaseCount => 3
  | .repeatDelay => 50
  | .repeatInterval => 10
  | .wakeByKey => 0
  | .lossTimeout => 50
  | .lossTone => 255
  | .gatherQuota => 4
  | .resendAfter => 3
  | .eventMask => 0
  | .lightMode => 0
  | .lightWindow => 8
  | .clickPattern => 255

/-- Every setting at its default (R196). -/
def defaultSettings : Vector Byte 24 := bytesVector 24 (allSettings.map settingDefault) rfl

end Sys2Proof.Machine
end

