-- ==== Sys2Proof/Machine/State.lean ====
section
/-! DEFINITION. The state of the node: every register, record, queue, mode and pin the spec gives its ten blocks, and
the queue of waiting commands. INVENTORY.md lists each with its rule and reset value. -/

namespace Sys2Proof.Machine

/-! ## Cell Store -/

/-- How a cell's code becomes a pattern (R1). -/
inductive Render
  | raw
  | glyph
  | suppress
  deriving DecidableEq, Repr

/-- The blink class of a cell (R1). -/
inductive BlinkClass
  | none
  | a
  | b
  deriving DecidableEq, Repr

/-- A cell record (R1). -/
structure CellRecord where
  code : Byte
  render : Render
  blink : BlinkClass
  mark : Bool
  lead : Option (Fin 128)
  deriving DecidableEq, Repr

/-- The reset record (R1). -/
def CellRecord.reset : CellRecord := ⟨0, .raw, .none, false, none⟩

/-- A plane: 128 records, addressed 0..127 (R1). -/
abbrev Plane := Vector CellRecord 128

/-- A plane of reset records (R3, R22). -/
def Plane.reset : Plane := ⟨⟨List.replicate 128 CellRecord.reset⟩, List.length_replicate ..⟩

/-- The planes and the commit state (R3, R4). -/
structure CellStore where
  draft : Plane
  pendingPlane : Plane
  shown : Plane
  pendingValid : Bool
  pendingTag : Byte
  shownTag : Byte
  deriving DecidableEq, Repr

/-- R22: every plane of reset records, pending-valid clear, shown tag 0; the pending tag has no meaning then
(assumption 26). -/
def CellStore.reset : CellStore := ⟨Plane.reset, Plane.reset, Plane.reset, false, 0, 0⟩

/-! ## Table Store -/

/-- The two copies of a table as bytes in chain layout, and its generation (R48). The bytes keep the positions that
name no value (R47). -/
structure TableRec (n : Nat) where
  staging : Vector Byte n
  active : Vector Byte n
  generation : Byte
  deriving DecidableEq, Repr

/-- A table at its default (R48, R68). -/
def TableRec.ofDefault {n : Nat} (v : Vector Byte n) : TableRec n := ⟨v, v, 0⟩

/-- The seven tables (R47) and the activation-pending set, bit n for table id n (R49). -/
structure TableStore where
  glyph : TableRec 64
  route : TableRec 768
  dim : TableRec 16
  keymap : TableRec 256
  scan : TableRec 34
  light : TableRec 34
  tone : TableRec 160
  pendingSet : BitVec 7
  deriving DecidableEq, Repr

/-- R68: both copies of every table at the defaults, generations 0, the set empty. -/
def TableStore.reset : TableStore :=
  ⟨.ofDefault defaultGlyph, .ofDefault defaultRoute, .ofDefault defaultDim, .ofDefault defaultKeymap,
    .ofDefault defaultScan, .ofDefault defaultLight, .ofDefault defaultTone, 0⟩

/-! ## Multiplex Driver -/

/-- The part of a phase in progress (R24). `ended` is the moment between the end of a sense window and the phase or
sweep start that follows at once (assumption 25). -/
inductive Window
  | lit
  | dark
  | sense
  | ended
  deriving DecidableEq, Repr

/-- The drive mode of a sweep (R39). -/
inductive DriveMode
  | off
  | quiet
  | blank
  | fallbackDark
  | fallbackFlash
  | normal
  deriving DecidableEq, Repr

/-- A blink generator: its half, the sweep counter value of that half's first sweep, and whether a restart waits
(R33, R34). -/
structure Blink where
  on : Bool
  start : Byte
  restart : Bool
  deriving DecidableEq, Repr

/-- The inputs fixed for a sweep at its sweep start (R26). -/
structure SweepInputs where
  shown : Plane
  glyph : Vector Byte 64
  route : Vector Byte 768
  dim : Vector Byte 16
  phases : Byte
  phaseTime : Byte
  display : Byte
  brightSource : Byte
  brightLevel : Byte
  fallback : Byte
  halfA : Bool
  halfB : Bool
  level : Nat
  onTime : Nat
  mode : DriveMode
  deriving DecidableEq, Repr

/-- No sweep runs in a hard reset: these inputs act on nothing before the release (assumption 14). -/
def SweepInputs.reset : SweepInputs :=
  ⟨Plane.reset, defaultGlyph, defaultRoute, defaultDim, settingDefault .phases, settingDefault .phaseTime,
    settingDefault .display, settingDefault .brightSource, settingDefault .brightLevel,
    settingDefault .fallback, false, false, 8, 32, .off⟩

/-- The Multiplex Driver (R24 to R26, R33, R37). -/
structure Drive where
  phase : Nat
  window : Window
  sweepCounter : Byte
  blinkA : Blink
  blinkB : Blink
  level : Nat
  sweep : SweepInputs
  deriving DecidableEq, Repr

/-- R45: phase counter 1, sweep counter 0, a restart waiting for both generators, level 8. The halves and half starts
are assumption 15. -/
def Drive.reset : Drive :=
  ⟨1, .ended, 0, ⟨false, 0, true⟩, ⟨false, 0, true⟩, 8, SweepInputs.reset⟩

/-! ## Key Scanner -/

/-- The effective mode (R74). -/
inductive ScanMode
  | off
  | full
  | wake
  deriving DecidableEq, Repr

/-- A stable level, DOWN or UP, and a candidate count (R77). -/
structure Debounce where
  down : Bool
  count : Nat
  deriving DecidableEq, Repr

/-- UP with count 0 (R77). -/
def Debounce.up : Debounce := ⟨false, 0⟩

/-- What is captured when a key becomes DOWN (R79). -/
structure PressRecord where
  code : Byte
  enabled : Bool
  reportUp : Bool
  repeats : Bool
  silence : Bool
  pressTime : Half
  held : Nat
  gap : Option Nat
  deriving DecidableEq, Repr

/-- A key's debounce record and press record (R77, R79). -/
structure KeyRecord where
  debounce : Debounce
  press : Option PressRecord
  deriving DecidableEq, Repr

/-- UP, count 0, no press record. -/
def KeyRecord.up : KeyRecord := ⟨Debounce.up, none⟩

/-- Every key UP. -/
def keysUp : Vector KeyRecord 128 := ⟨⟨List.replicate 128 KeyRecord.up⟩, List.length_replicate ..⟩

/-- The Key Scanner; `anyKey` is none while the any-key record is stopped (R88). -/
structure Scanner where
  mode : ScanMode
  step : Nat
  keys : Vector KeyRecord 128
  anyKey : Option Debounce
  deriving DecidableEq, Repr

/-- R92. -/
def Scanner.reset : Scanner := ⟨.off, 1, keysUp, none⟩

/-! ## Event Queue -/

/-- The nine kinds of event (R95). -/
inductive EventKind
  | keyDown
  | keyUp
  | keyRepeat
  | wakeKey
  | linkResumed
  | lost
  | lightLevel
  | commitShown
  | tablesActive
  deriving DecidableEq, Repr

/-- UNSENT, or SENT with an age (R94). -/
inductive Delivery
  | unsent
  | sent (age : Nat)
  deriving DecidableEq, Repr

/-- An event entry (R94). -/
structure Entry where
  seq : Byte
  kind : EventKind
  argument : Byte
  time : Half
  delivery : Delivery
  deriving DecidableEq, Repr

/-- The entries from head to tail (R96), next-seq (R97) and pending-loss (R101). -/
structure EventQueue where
  entries : List Entry
  nextSeq : Byte
  pendingLoss : Nat
  deriving DecidableEq, Repr

/-- R114. -/
def EventQueue.reset : EventQueue := ⟨[], 0, 0⟩

/-! ## Light Sense Unit -/

/-- The measurement state (R117). -/
inductive LightState
  | stopped
  | edgeWait
  | periodCount
  | windowWait
  | windowCount
  deriving DecidableEq, Repr

/-- The Light Sense Unit (R117). -/
structure LightUnit where
  state : LightState
  count : Nat
  windowSweeps : Nat
  result : Nat
  overflow : Bool
  level : Nat
  deriving DecidableEq, Repr

/-- R117, R130. -/
def LightUnit.reset : LightUnit := ⟨.stopped, 0, 0, 0, false, 0⟩

/-! ## Tone Unit -/

/-- Who started the play (R134). -/
inductive ToneKind
  | requested
  | alert
  | click
  deriving DecidableEq, Repr

/-- The channel record in PLAYING (R134). `repeatsLeft` is none for UNBOUNDED; `pHigh` says that TONE_P is the high
output of an on segment, and that TONE_N is when it is false; in an off segment `pHigh` and `halfTime` have no meaning
(assumption 26). -/
structure Play where
  kind : ToneKind
  number : Byte
  copy : Vector Byte 20
  segment : Nat
  segmentTime : Nat
  repeatsLeft : Option Nat
  pHigh : Bool
  halfTime : Nat
  deriving DecidableEq, Repr

/-! ## Node Control -/

/-- The node state (R146). -/
inductive NodeState
  | unaddressed
  | online
  | standalone
  | quiescent
  deriving DecidableEq, Repr

/-- Node Control (R146, R158, R163, R164). The timer's state is `State.linkTimer`. -/
structure NodeControl where
  state : NodeState
  address : Option Byte
  time : Half
  silence : Nat
  fallbackHold : Bool
  deriving DecidableEq, Repr

/-- R147. -/
def NodeControl.reset : NodeControl := ⟨.unaddressed, none, 0, 0, false⟩

/-! ## Frame Relay -/

inductive SlotId
  | one
  | two
  deriving DecidableEq, Repr

/-- What a slot is doing (R170). -/
inductive SlotUse
  | free
  | filling
  | ready
  | sending
  deriving DecidableEq, Repr

/-- The delimiter a slot is closed with (R170). -/
inductive EndMark
  | ed
  | ab
  deriving DecidableEq, Repr

/-- A frame slot: its bytes between the delimiters, the invalid mark of each, and its end mark (R170). -/
structure Slot where
  use : SlotUse
  bytes : List Byte
  invalid : List Bool
  mark : EndMark
  deriving DecidableEq, Repr

/-- A FREE slot holds no frame (R170). The end mark it holds then, and a FILLING slot until its end, is the model's
choice: the spec gives it none (assumption 26). -/
def Slot.free : Slot := ⟨.free, [], [], .ed⟩

/-- How far repetition has come in BYPASS (R179, R180): not begun, begun with no frame open, or begun with a frame open
and that many bytes since its SD. -/
inductive Repetition
  | waiting
  | between
  | inFrame (bytes : Nat)
  deriving DecidableEq, Repr

/-- The relay mode (R170); BYPASS_TAIL holds the bytes since the SD of the frame repeated (R181). -/
inductive RelayMode
  | relay
  | bypass (rep : Repetition)
  | bypassTail (bytes : Nat)
  deriving DecidableEq, Repr

/-- The receive state (R170); UNSTORED holds the bytes counted toward the frame's length (R171). -/
inductive Receive
  | between
  | storing (slot : SlotId)
  | unstored (bytes : Nat)
  | discarding
  deriving DecidableEq, Repr

/-- The transmit state (R170): IDLE with the IDLE symbols sent since the last delimiter (2 for 2 and more), or SENDING a
slot. -/
inductive Transmit
  | idle (sent : Nat)
  | sending (slot : SlotId)
  deriving DecidableEq, Repr

/-- The Frame Relay (R170). `tx` is what the transmit pair carries, none while it is not driven (R147). -/
structure Relay where
  mode : RelayMode
  slot1 : Slot
  slot2 : Slot
  readyOrder : List SlotId
  rx : Receive
  transmit : Transmit
  errors : Nat
  tx : Option Symbol
  deriving DecidableEq, Repr

/-- R170, R179: BYPASS with repetition not begun, both slots FREE, link error count 0 (assumption 16). -/
def Relay.reset : Relay :=
  ⟨.bypass .waiting, Slot.free, Slot.free, [], .between, .idle 0, 0, some .idle⟩

/-! ## Request Engine -/

/-- The scopes of NODE_RESET (R192). -/
inductive Scope
  | display
  | events
  | full
  deriving DecidableEq, Repr

/-- What the Request Engine holds for one frame's processing (R183), with the payload as it was received (R184), the
address at the hand-over (R185) and the frame's slot. -/
structure Processing where
  slot : SlotId
  broadcast : Bool
  address : Byte
  request : List Byte
  parse : Nat
  answered : Nat
  reply : Nat
  truncated : Bool
  resetStop : Bool
  deriving DecidableEq, Repr

/-- The Request Engine: idle, taking the items of a frame, or holding a frame whose NODE_RESET is due (R192). -/
inductive Engine
  | idle
  | taking (p : Processing)
  | due (slot : SlotId) (scope : Scope)
  deriving DecidableEq, Repr

/-! ## The node -/

/-- The whole state of the node, and the commands that wait. -/
structure State where
  rstLow : Bool
  supplyOk : Bool
  relay : Relay
  node : NodeControl
  engine : Engine
  settings : Vector Byte 24
  cells : CellStore
  tables : TableStore
  drive : Drive
  scanner : Scanner
  queue : EventQueue
  light : LightUnit
  tone : Option Play
  pending : List Instr
  deriving DecidableEq, Repr

/-- The reasons the machine stops with a fault: there are none. The spec answers every wrong input by a status, a count
or a frame passed on (INVENTORY.md, Faults), so no constructor is raised by anyone. -/
inductive Fault
  deriving DecidableEq, Repr

/-- The reasons a command is refused. -/
inductive Refusal
  /-- Raised by a row of exec that has no meaning yet, and by nothing else; no row is left so. Safe: a refusal proves
  no next state. -/
  | notModelled (mnemonic : String)
  deriving DecidableEq, Repr

/-- The node in a hard reset: RST_N low, the supply in range (R147; assumption 1). The next commands from here act once
RESET_RELEASE has been taken. -/
def State.reset : State where
  rstLow := true
  supplyOk := true
  relay := Relay.reset
  node := NodeControl.reset
  engine := .idle
  settings := defaultSettings
  cells := CellStore.reset
  tables := TableStore.reset
  drive := Drive.reset
  scanner := Scanner.reset
  queue := EventQueue.reset
  light := LightUnit.reset
  tone := none
  pending := []

/-! ## Updates: one for each field; Laws/State.lean says what each leaves alone -/

/-- `s` with its field `rstLow` replaced. -/
def State.withRstLow (s : State) (x : Bool) : State := { s with rstLow := x }

/-- `s` with its field `supplyOk` replaced. -/
def State.withSupplyOk (s : State) (x : Bool) : State := { s with supplyOk := x }

/-- `s` with its field `relay` replaced. -/
def State.withRelay (s : State) (x : Relay) : State := { s with relay := x }

/-- `s` with its field `node` replaced. -/
def State.withNode (s : State) (x : NodeControl) : State := { s with node := x }

/-- `s` with its field `engine` replaced. -/
def State.withEngine (s : State) (x : Engine) : State := { s with engine := x }

/-- `s` with its field `settings` replaced. -/
def State.withSettings (s : State) (x : Vector Byte 24) : State := { s with settings := x }

/-- `s` with its field `cells` replaced. -/
def State.withCells (s : State) (x : CellStore) : State := { s with cells := x }

/-- `s` with its field `tables` replaced. -/
def State.withTables (s : State) (x : TableStore) : State := { s with tables := x }

/-- `s` with its field `drive` replaced. -/
def State.withDrive (s : State) (x : Drive) : State := { s with drive := x }

/-- `s` with its field `scanner` replaced. -/
def State.withScanner (s : State) (x : Scanner) : State := { s with scanner := x }

/-- `s` with its field `queue` replaced. -/
def State.withQueue (s : State) (x : EventQueue) : State := { s with queue := x }

/-- `s` with its field `light` replaced. -/
def State.withLight (s : State) (x : LightUnit) : State := { s with light := x }

/-- `s` with its field `tone` replaced. -/
def State.withTone (s : State) (x : Option Play) : State := { s with tone := x }

/-- `s` with its field `pending` replaced. -/
def State.withPending (s : State) (x : List Instr) : State := { s with pending := x }

end Sys2Proof.Machine
end

