-- ==== Sys2Proof/Machine/Flags.lean ====
section
/-! DEFINITION. Statuses, flags and the code values the node writes to the chain (R191, R199, sections 12.1 to 12.5). -/

namespace Sys2Proof.Machine

/-- The status of a reply item (R191). -/
inductive Status
  | ok
  | badRequest
  | badRange
  | badCode
  | badLink
  | badTable
  | busy
  | badAck
  | badState
  deriving DecidableEq, Repr

/-- The status values of section 12.3. -/
def statusByte : Status → Byte
  | .ok => 0
  | .badRequest => 1
  | .badRange => 2
  | .badCode => 3
  | .badLink => 4
  | .badTable => 5
  | .busy => 6
  | .badAck => 7
  | .badState => 8

/-- A flag in a byte of its own: 0 clear, 1 set. -/
def flagByte (b : Bool) : Byte := if b then 1 else 0

/-- A count in a byte. -/
def natByte (n : Nat) : Byte := BitVec.ofNat 8 n

/-- A count in two bytes, as sent. -/
def natBytes (n : Nat) : List Byte := [hiByte (BitVec.ofNat 16 n), loByte (BitVec.ofNat 16 n)]

/-- The event kind values of section 12.2. -/
def eventKindByte : EventKind → Byte
  | .keyDown => 1
  | .keyUp => 2
  | .keyRepeat => 3
  | .wakeKey => 4
  | .linkResumed => 5
  | .lost => 6
  | .lightLevel => 7
  | .commitShown => 8
  | .tablesActive => 9

/-- The node state in READ_STATUS (section 12.5). -/
def nodeStateByte : NodeState → Byte
  | .unaddressed => 0
  | .online => 1
  | .standalone => 2
  | .quiescent => 3

/-- The kind of a play, as the tone state of READ_STATUS and of TONE_STOP (sections 12.3, 12.5). -/
def toneKindByte : ToneKind → Byte
  | .requested => 1
  | .alert => 2
  | .click => 3

/-- The tone state: 0 for IDLE. -/
def toneStateByte : Option Play → Byte
  | none => 0
  | some play => toneKindByte play.kind

/-- The tone pattern: 0 when IDLE (section 12.5). -/
def tonePatternByte : Option Play → Byte
  | none => 0
  | some play => play.number

/-- The effective scan mode in READ_STATUS (section 12.5). -/
def scanModeByte : ScanMode → Byte
  | .off => 0
  | .full => 1
  | .wake => 2

/-- Header byte 0 of a REPLY: kind 3, TRUNCATED in bit 6, RESET_STOP in bit 7, unused bits 0 (section 12.1, R200). -/
def replyHeaderByte (truncated resetStop : Bool) : Byte :=
  3#8 ||| (if truncated then 0x40#8 else 0) ||| (if resetStop then 0x80#8 else 0)

/-- A count that saturates. -/
def saturate (limit n : Nat) : Nat := min limit n

end Sys2Proof.Machine
end

