-- ==== Sys2Proof/Machine/Operands.lean ====
section
/-! DEFINITION. The operand forms: bytes in place, settings, table entries and cell records (12_wire_formats.md). -/

namespace Sys2Proof.Machine

/-! ## Bytes in place -/

/-- `l` with `new` written over it from position `i` on; what would run past the end is dropped, so the length stays. -/
def overwrite {α : Type} : List α → Nat → List α → List α
  | [], _, _ => []
  | x :: xs, _, [] => x :: xs
  | _ :: xs, 0, y :: ys => y :: overwrite xs 0 ys
  | x :: xs, i + 1, y :: ys => x :: overwrite xs i (y :: ys)

theorem overwrite_length {α : Type} (l : List α) (i : Nat) (new : List α) :
    (overwrite l i new).length = l.length := by
  induction l generalizing i new with
  | nil => rfl
  | cons x xs ih => cases new <;> cases i <;> simp [overwrite, ih]

/-- `overwrite` on a vector. -/
def overwriteVector {α : Type} {n : Nat} (v : Vector α n) (i : Nat) (new : List α) : Vector α n :=
  ⟨⟨overwrite v.toList i new⟩, by simp [overwrite_length]⟩

/-- Every element of a vector through a function. -/
def mapVector {α β : Type} {n : Nat} (f : α → β) (v : Vector α n) : Vector β n :=
  ⟨⟨v.toList.map f⟩, by simp⟩

/-- Byte `i` of a store; every use is within the store. -/
def byteAt {n : Nat} (v : Vector Byte n) (i : Nat) : Byte := v.toList.getD i 0

/-- The two-byte field at byte `i`. -/
def halfAt {n : Nat} (v : Vector Byte n) (i : Nat) : Half := joinBytes (byteAt v i) (byteAt v (i + 1))

/-! ## Settings (section 12.6, R196, R198) -/

def settingId : Setting → Nat
  | .phases => 0
  | .phaseTime => 1
  | .display => 2
  | .brightSource => 3
  | .brightLevel => 4
  | .blinkAOn => 5
  | .blinkAOff => 6
  | .blinkBOn => 7
  | .blinkBOff => 8
  | .fallback => 9
  | .scanMode => 10
  | .pressCount => 11
  | .releaseCount => 12
  | .repeatDelay => 13
  | .repeatInterval => 14
  | .wakeByKey => 15
  | .lossTimeout => 16
  | .lossTone => 17
  | .gatherQuota => 18
  | .resendAfter => 19
  | .eventMask => 20
  | .lightMode => 21
  | .lightWindow => 22
  | .clickPattern => 23

/-- The setting an id names; ids 24..255 name none. -/
def settingOfId (id : Byte) : Option Setting := allSettings[id.toNat]?

/-- The range of each setting in its encoding. -/
def settingInRange : Setting → Byte → Bool
  | .phases, v => 1 ≤ v.toNat && v.toNat ≤ 8
  | .phaseTime, v => 16 ≤ v.toNat
  | .display, v => v.toNat ≤ 1
  | .brightSource, v => v.toNat ≤ 1
  | .brightLevel, v => v.toNat ≤ 15
  | .blinkAOn, v => 1 ≤ v.toNat
  | .blinkAOff, v => 1 ≤ v.toNat
  | .blinkBOn, v => 1 ≤ v.toNat
  | .blinkBOff, v => 1 ≤ v.toNat
  | .fallback, v => v.toNat ≤ 2
  | .scanMode, v => v.toNat ≤ 1
  | .pressCount, v => 1 ≤ v.toNat && v.toNat ≤ 15
  | .releaseCount, v => 1 ≤ v.toNat && v.toNat ≤ 15
  | .repeatDelay, v => 1 ≤ v.toNat
  | .repeatInterval, v => 1 ≤ v.toNat
  | .wakeByKey, v => v.toNat ≤ 1
  | .lossTimeout, _ => true
  | .lossTone, v => v.toNat ≤ 7 || v.toNat == 255
  | .gatherQuota, v => 1 ≤ v.toNat && v.toNat ≤ 8
  | .resendAfter, v => 1 ≤ v.toNat && v.toNat ≤ 15
  | .eventMask, v => v.toNat ≤ 7
  | .lightMode, v => v.toNat ≤ 2
  | .lightWindow, v => 1 ≤ v.toNat && v.toNat ≤ 64
  | .clickPattern, v => v.toNat ≤ 7 || v.toNat == 255

/-- The display group of NODE_RESET (R196). -/
def settingInDisplayGroup : Setting → Bool
  | .phases | .phaseTime | .display | .brightSource | .brightLevel | .blinkAOn | .blinkAOff
  | .blinkBOn | .blinkBOff | .fallback => true
  | .scanMode | .pressCount | .releaseCount | .repeatDelay | .repeatInterval | .wakeByKey
  | .lossTimeout | .lossTone | .gatherQuota | .resendAfter | .eventMask | .lightMode
  | .lightWindow | .clickPattern => false

/-- The event group of NODE_RESET (R196). -/
def settingInEventGroup : Setting → Bool
  | .gatherQuota | .resendAfter | .eventMask => true
  | .phases | .phaseTime | .display | .brightSource | .brightLevel | .blinkAOn | .blinkAOff
  | .blinkBOn | .blinkBOff | .fallback | .scanMode | .pressCount | .releaseCount | .repeatDelay
  | .repeatInterval | .wakeByKey | .lossTimeout | .lossTone | .lightMode | .lightWindow
  | .clickPattern => false

/-- The stored value of a setting. -/
def State.setting (s : State) (n : Setting) : Byte := byteAt s.settings (settingId n)

/-- The settings with one value stored. -/
def storeSetting (st : Vector Byte 24) (n : Setting) (v : Byte) : Vector Byte 24 :=
  overwriteVector st (settingId n) [v]

/-- The settings with those of one group at their defaults (R196). -/
def resetGroup (group : Setting → Bool) (st : Vector Byte 24) : Vector Byte 24 :=
  ⟨⟨allSettings.map fun n => if group n then settingDefault n else byteAt st (settingId n)⟩, rfl⟩

/-! ## Tables (R47, section 12.7) -/

def tableId : Table → Nat
  | .glyph => 0
  | .route => 1
  | .dim => 2
  | .keymap => 3
  | .scan => 4
  | .light => 5
  | .tone => 6

/-- The tables in id order. -/
def allTables : List Table := [.glyph, .route, .dim, .keymap, .scan, .light, .tone]

/-- The table a byte names; 7..255 name none. -/
def tableOfByte (b : Byte) : Option Table := allTables[b.toNat]?

def tableEntries : Table → Nat
  | .glyph => 64
  | .route => 384
  | .dim => 16
  | .keymap => 128
  | .scan => 17
  | .light => 17
  | .tone => 8

def tableEntryBytes : Table → Nat
  | .glyph => 1
  | .route => 2
  | .dim => 1
  | .keymap => 2
  | .scan => 2
  | .light => 2
  | .tone => 20

/-- Whether a set of table ids names a table. -/
def inSet (set : BitVec 7) (t : Table) : Bool := set.getLsbD (tableId t)

/-- A route entry (R29, section 12.7). -/
structure RouteEntry where
  kind : BitVec 2
  line : BitVec 3
  invert : Bool
  static : Bool
  cell : Fin 128
  deriving DecidableEq, Repr

/-- Route entry `i`. -/
def routeEntry (v : Vector Byte 768) (i : Nat) : RouteEntry where
  kind := (byteAt v (2 * i)).extractLsb' 0 2
  line := (byteAt v (2 * i)).extractLsb' 2 3
  invert := (byteAt v (2 * i)).getLsbD 5
  static := (byteAt v (2 * i)).getLsbD 6
  cell := ((byteAt v (2 * i + 1)).extractLsb' 0 7).toFin

/-- The route entry index of segment line `line` (1..48) in phase `phase` (R29). -/
def routeIndex (line phase : Nat) : Nat := (line - 1) * 8 + (phase - 1)

/-- KEYMAP entry `k`: its code and its flags enabled, report_up, repeat, silence (section 12.7). -/
def keymapCode (v : Vector Byte 256) (k : Nat) : Byte := byteAt v (2 * k)
def keymapFlag (v : Vector Byte 256) (k bit : Nat) : Bool := (byteAt v (2 * k + 1)).getLsbD bit

/-- SCAN: the step count, and the column set of a step with column c in bit c − 1 (section 12.7). -/
def scanStepCount (v : Vector Byte 34) : Nat := (halfAt v 0).toNat
def scanColumns (v : Vector Byte 34) (step : Nat) : Half := halfAt v (2 * step)

/-- LIGHT: the threshold count, the invert flag, the hysteresis and threshold j (section 12.7). -/
def lightThresholds (v : Vector Byte 34) : Nat := (byteAt v 0).toNat
def lightInvert (v : Vector Byte 34) : Bool := (byteAt v 1).getLsbD 0
def lightHysteresis (v : Vector Byte 34) : Nat := (halfAt v 2).toNat
def lightThreshold (v : Vector Byte 34) (j : Nat) : Nat := (halfAt v (2 * (j + 1))).toNat

/-- TONE entry `q` as its 20 bytes. -/
def toneCopy (v : Vector Byte 160) (q : Nat) : Vector Byte 20 :=
  ⟨⟨(List.range 20).map fun i => byteAt v (20 * q + i)⟩, by simp⟩

/-- The fields of a pattern (R133, section 12.7); segments count from 1. -/
def patternHalfPeriod (p : Vector Byte 20) : Nat := (halfAt p 0).toNat
def patternSegments (p : Vector Byte 20) : Nat := (byteAt p 2).toNat
def patternRepeats (p : Vector Byte 20) : Nat := (byteAt p 3).toNat
def patternOn (p : Vector Byte 20) (j : Nat) : Bool := (byteAt p (2 + 2 * j)).getLsbD 0
def patternDuration (p : Vector Byte 20) (j : Nat) : Nat := (byteAt p (3 + 2 * j)).toNat

/-! ## Cell records (section 12.4, R10) -/

/-- The render field; none for the fourth encoding. -/
def renderOf (attr : Byte) : Option Render :=
  if attr.extractLsb' 0 2 = 0 then some .raw
  else if attr.extractLsb' 0 2 = 1 then some .glyph
  else if attr.extractLsb' 0 2 = 2 then some .suppress
  else none

/-- The blink field; none for the fourth encoding. -/
def blinkOf (attr : Byte) : Option BlinkClass :=
  if attr.extractLsb' 2 2 = 0 then some .none
  else if attr.extractLsb' 2 2 = 1 then some .a
  else if attr.extractLsb' 2 2 = 2 then some .b
  else none

/-- The lead field. -/
def leadOf (lead : Byte) : Option (Fin 128) :=
  if lead.getLsbD 7 then some ((lead.extractLsb' 0 7).toFin) else none

/-- The checks of one record against the address it is to be written to, in the order of R10. -/
def recordFor (target : Nat) (r : RecordBytes) : Except Status CellRecord :=
  match renderOf r.attr with
  | none => .error .badRange
  | some render =>
    match blinkOf r.attr with
    | none => .error .badRange
    | some blink =>
      if render ≠ .raw ∧ 64 ≤ r.code.toNat then .error .badCode
      else
        match leadOf r.lead with
        | none => .ok ⟨r.code, render, blink, r.attr.getLsbD 4, none⟩
        | some lead =>
          if lead.val < target then .ok ⟨r.code, render, blink, r.attr.getLsbD 4, some lead⟩
          else .error .badLink

def renderBits : Render → Byte
  | .raw => 0
  | .glyph => 1
  | .suppress => 2

def blinkBits : BlinkClass → Byte
  | .none => 0
  | .a => 4
  | .b => 8

/-- The lead byte: bit 7 and the address, or 0 (section 12.4). -/
def leadByte : Option (Fin 128) → Byte
  | none => 0
  | some lead => 0x80#8 ||| natByte lead.val

/-- A record as READ_CELLS returns it. -/
def recordBytes (c : CellRecord) : List Byte :=
  [c.code, renderBits c.render ||| blinkBits c.blink ||| (if c.mark then 0x10#8 else 0), leadByte c.lead]

/-- The three-byte records of a run, and none when it does not divide into whole records (R11). -/
def recordsOf : List Byte → Option (List RecordBytes)
  | [] => some []
  | code :: attr :: lead :: rest => (recordsOf rest).map (⟨code, attr, lead⟩ :: ·)
  | [_] => none
  | [_, _] => none

end Sys2Proof.Machine
end

