-- ==== Sys2Proof/Machine/Ops.lean ====
section
/-! DEFINITION. The operations that commands of several families share: the event queue, the tone channel, the light
measurement, Node Control, pattern formation, the frame slots and the CRC. -/

namespace Sys2Proof.Machine

/-- The node is in a hard reset: RST_N low, or the supply below its range (R147). -/
def State.inReset (s : State) : Bool := s.rstLow || !s.supplyOk

/-! ## Event queue (chapter 5) -/

/-- A LOST entry is not ordinary (R95). -/
def Entry.ordinary (e : Entry) : Bool := e.kind != .lost

def Entry.isSent (e : Entry) : Bool := e.delivery != .unsent

/-- R98: the send point, as the number of entries before it. -/
def EventQueue.sendPoint (q : EventQueue) : Nat := (q.entries.takeWhile Entry.isSent).length

/-- R98: the entries from the send point to the tail. -/
def EventQueue.unsentCount (q : EventQueue) : Nat := q.entries.length - q.sendPoint

/-- R97: an entry joins at the tail with next-seq, UNSENT. -/
def EventQueue.append (q : EventQueue) (kind : EventKind) (argument : Byte) (time : Half) : EventQueue :=
  { q with entries := q.entries ++ [⟨q.nextSeq, kind, argument, time, .unsent⟩], nextSeq := q.nextSeq + 1 }

/-- R99: room for an ordinary event. -/
def EventQueue.hasRoom (q : EventQueue) : Bool :=
  q.entries.countP Entry.ordinary < Config.ordinaryPlaces && q.entries.length < Config.queuePlaces

/-- A LOST entry that still absorbs drops (R101, R102). -/
def Entry.absorbs (e : Entry) : Bool := e.kind == .lost && !e.isSent

/-- R101: an argument one higher, saturating at 255. -/
def Entry.absorb (e : Entry) : Entry :=
  { e with argument := if e.argument = 255 then 255 else e.argument + 1 }

/-- The tail entry through a function; an empty queue stays empty. -/
def mapTail (f : Entry → Entry) : List Entry → List Entry
  | [] => []
  | [e] => [f e]
  | e :: e' :: rest => e :: mapTail f (e' :: rest)

/-- R101: the three ways a drop is counted, the first that applies. -/
def EventQueue.drop (q : EventQueue) (time : Half) : EventQueue :=
  if q.entries.getLast?.any Entry.absorbs then { q with entries := mapTail Entry.absorb q.entries }
  else if q.entries.length < Config.queuePlaces then q.append .lost 1 time
  else { q with pendingLoss := saturate 255 (q.pendingLoss + 1) }

/-- R100: an ordinary event is appended, or dropped and counted. -/
def EventQueue.take (q : EventQueue) (kind : EventKind) (argument : Byte) (time : Half) : EventQueue :=
  if q.hasRoom then q.append kind argument time else q.drop time

/-- R100, R104: a submission, stamped with the time counter; discarded while the node is UNADDRESSED. -/
def State.submit (s : State) (kind : EventKind) (argument : Byte) : State :=
  if s.node.state = .unaddressed then s
  else s.withQueue (s.queue.take kind argument s.node.time)

/-- Whether EVENT_MASK includes a kind, given by its bit (R105, section 12.6). -/
def State.masked (s : State) (bit : Nat) : Bool := (s.setting .eventMask).getLsbD bit

/-- A submission made when there is one. -/
def State.submitSome (s : State) : Option (EventKind × Byte) → State
  | none => s
  | some event => s.submit event.1 event.2

/-- R107 step 1: a SENT entry one pass older. -/
def Entry.age (e : Entry) : Entry :=
  match e.delivery with
  | .unsent => e
  | .sent age => { e with delivery := .sent (saturate 15 (age + 1)) }

/-- R107 step 2: every entry UNSENT. -/
def Entry.unsend (e : Entry) : Entry := { e with delivery := .unsent }

/-- R107: the head is SENT and its age is at least RESEND_AFTER. -/
def EventQueue.goBackDue (q : EventQueue) (resendAfter : Nat) : Bool :=
  match q.entries with
  | [] => false
  | e :: _ =>
    match e.delivery with
    | .unsent => false
    | .sent age => resendAfter ≤ age

/-- R107: aging. -/
def EventQueue.ageAll (q : EventQueue) : EventQueue := { q with entries := q.entries.map Entry.age }

/-- R107: every entry UNSENT, so the send point is at the head. -/
def EventQueue.unsendAll (q : EventQueue) : EventQueue := { q with entries := q.entries.map Entry.unsend }

/-- R107: aging, then a go-back when it is due. -/
def EventQueue.ageAndGoBack (q : EventQueue) (resendAfter : Nat) : EventQueue :=
  if q.ageAll.goBackDue resendAfter then q.ageAll.unsendAll else q.ageAll

/-- R98: the entry at the send point. -/
def EventQueue.atSendPoint (q : EventQueue) : Option Entry := q.entries.find? fun e => !e.isSent

/-- The first UNSENT entry becomes SENT with age 0 (R108). -/
def markFirstUnsent : List Entry → List Entry
  | [] => []
  | e :: rest => if e.isSent then e :: markFirstUnsent rest else { e with delivery := .sent 0 } :: rest

/-- The six bytes of a filled slot (R109, section 12.2). -/
def gatherSlot (address : Byte) (e : Entry) : List Byte :=
  [address, e.seq, eventKindByte e.kind, e.argument, hiByte e.time, loByte e.time]

/-- R108: filling `slots` slots of a frame from byte `at_` of its bytes on, at most `quota` of them. -/
def fillSlots (address : Byte) : Nat → Nat → Nat → List Byte → EventQueue → List Byte × EventQueue
  | 0, _, _, bytes, q => (bytes, q)
  | slots + 1, at_, quota, bytes, q =>
    if quota = 0 then (bytes, q)
    else
      match q.atSendPoint with
      | none => (bytes, q)
      | some e =>
        if bytes.getD at_ 0 = 0 then
          fillSlots address slots (at_ + 6) (quota - 1) (overwrite bytes at_ (gatherSlot address e))
            { q with entries := markFirstUnsent q.entries }
        else fillSlots address slots (at_ + 6) quota bytes q

/-! ## Tone channel (chapter 7) -/

/-- R135: a play from a fresh copy of the pattern, at segment 1 (an on segment begins with TONE_P high, R136). The carrier
phase of an off segment is the model's choice (assumption 26). -/
def newPlay (kind : ToneKind) (number : Byte) (table : Vector Byte 160) : Play where
  kind := kind
  number := number
  copy := toneCopy table number.toNat
  segment := 1
  segmentTime := 0
  repeatsLeft :=
    if patternRepeats (toneCopy table number.toNat) = 0 then none
    else some (patternRepeats (toneCopy table number.toNat))
  pHigh := true
  halfTime := 0

def State.startPlay (s : State) (kind : ToneKind) (number : Byte) : State :=
  s.withTone (some (newPlay kind number s.tables.tone.active))

/-- The channel plays this kind. -/
def State.plays (s : State) (kind : ToneKind) : Bool :=
  match s.tone with
  | none => false
  | some play => play.kind == kind

/-- The row click of R138. -/
def State.claimClick (s : State) (number : Byte) : State :=
  if s.plays .requested || s.plays .alert then s else s.startPlay .click number

/-- The row alert of R138; the cell "not reached" starts a play as its neighbours do (assumption 17). -/
def State.claimAlert (s : State) (number : Byte) : State := s.startPlay .alert number

/-- The row silence of R138. -/
def State.claimSilence (s : State) : State :=
  if s.plays .requested || s.plays .alert then s.withTone none else s

/-- The row link resumed of R138. -/
def State.claimLinkResumed (s : State) : State := if s.plays .alert then s.withTone none else s

/-- The rows TONE_STOP and of the state changes of R138: the channel becomes IDLE. -/
def State.stopPlay (s : State) : State := s.withTone none

/-! ## Light measurement (chapter 6) -/

/-- R118: the unit runs. -/
def State.lightRuns (s : State) : Bool :=
  (s.node.state == .online || s.node.state == .standalone) && s.setting .lightMode != 0

/-- The measurement in flight is discarded; result, overflow flag and level stay (R118). -/
def LightUnit.stop (u : LightUnit) : LightUnit := { u with state := .stopped, count := 0, windowSweeps := 0 }

/-- A new measurement in the mode LIGHT_MODE holds (R119, R121, R123). -/
def LightUnit.start (u : LightUnit) (mode : Byte) : LightUnit :=
  if mode = 1 then { u with state := .edgeWait, count := 0, windowSweeps := 0 }
  else if mode = 2 then { u with state := .windowWait, count := 0, windowSweeps := 0 }
  else u.stop

/-- R118, R123: a new measurement while the unit runs, STOPPED otherwise. -/
def State.beginMeasurement (s : State) : State :=
  s.withLight (if s.lightRuns then s.light.start (s.setting .lightMode) else s.light.stop)

def State.stopMeasurement (s : State) : State := s.withLight s.light.stop

/-- R125 step 2: the thresholds among T1..Tn at or below the result. -/
def rawLevel (table : Vector Byte 34) (result : Nat) : Nat :=
  ((List.range (lightThresholds table)).filter fun j => lightThreshold table (j + 1) ≤ result).length

/-- R125: clamp, raw level, rise, fall. Nat subtraction takes T − H as 0 when H is at least T. -/
def formLevel (table : Vector Byte 34) (level result : Nat) : Nat :=
  let clamped := min level (lightThresholds table)
  let raw := rawLevel table result
  if clamped < raw then raw
  else if raw < clamped then
    if result < lightThreshold table clamped - lightHysteresis table then raw else clamped
  else clamped

/-- R128: the event of a completion with this result, when the level changes and EVENT_MASK includes LIGHT_LEVEL. -/
def State.levelEvent (s : State) (result : Nat) : Option (EventKind × Byte) :=
  let level := formLevel s.tables.light.active s.light.level result
  if level ≠ s.light.level ∧ s.masked 0 then some (.lightLevel, natByte level) else none

/-- R124: the result and the overflow flag are stored and the level is formed. -/
def State.storeResult (s : State) (result : Nat) (overflow : Bool) : State :=
  s.withLight
    { s.light with
      result := result
      overflow := overflow
      level := formLevel s.tables.light.active s.light.level result }

/-- R124, R128: a completed measurement. -/
def State.completeMeasurement (s : State) (result : Nat) (overflow : Bool) : State :=
  (s.storeResult result overflow).submitSome (s.levelEvent result)

/-- R127: the brightness output. -/
def State.brightnessOutput (s : State) : Nat :=
  if lightInvert s.tables.light.active then 15 - s.light.level else s.light.level

/-! ## Node Control (chapter 8) -/

/-- The state of the link-loss timer (R158). -/
inductive LinkTimer
  | stopped
  | running
  | expired
  deriving DecidableEq, Repr

/-- R158: the timer's state follows the node state and LOSS_TIMEOUT. -/
def State.linkTimer (s : State) : LinkTimer :=
  match s.node.state with
  | .unaddressed => .stopped
  | .quiescent => .stopped
  | .online => if s.setting .lossTimeout = 0 then .stopped else .running
  | .standalone => .expired

def State.setNodeState (s : State) (state : NodeState) : State := s.withNode { s.node with state := state }

/-- R159: the silence time from 0. -/
def State.restartTimer (s : State) : State := s.withNode { s.node with silence := 0 }

def State.setFallbackHold (s : State) (hold : Bool) : State := s.withNode { s.node with fallbackHold := hold }

/-- R161: the argument of LINK_RESUMED, in units of 100 ms, rounded up and held at 255. -/
def outageArgument (silence : Nat) : Byte := natByte (saturate 255 ((silence + 99) / 100))

/-- R161: a good frame in STANDALONE. -/
def State.returnOnline (s : State) : State :=
  (((s.setNodeState .online).claimLinkResumed).submit .linkResumed (outageArgument s.node.silence)).restartTimer

/-- R148: the good-frame report. -/
def State.reportGoodFrame (s : State) : State :=
  match s.node.state with
  | .unaddressed => s
  | .online => s.restartTimer
  | .standalone => s.returnOnline
  | .quiescent => s

/-- R155, R156: the parked node becomes ONLINE; the timer starts afresh and a light measurement begins. -/
def State.wakeNode (s : State) : State := ((s.setNodeState .online).restartTimer).beginMeasurement

/-- R154: the node becomes QUIESCENT; timer, tone and light stop. -/
def State.parkNode (s : State) : State :=
  (((s.setNodeState .quiescent).restartTimer).stopPlay).stopMeasurement

/-- R150, R152: the node takes an address. -/
def State.takeAddress (s : State) (address : Byte) : State :=
  if s.node.state = .unaddressed then
    ((s.withNode { s.node with state := .online, address := some address, silence := 0 })).beginMeasurement
  else s.withNode { s.node with address := some address }

/-- R153: the node becomes UNADDRESSED. -/
def State.becomeUnaddressed (s : State) : State :=
  ((((s.withNode { s.node with state := .unaddressed, address := none, silence := 0, fallbackHold := false }).withQueue
    EventQueue.reset).stopPlay).withScanner Scanner.reset).stopMeasurement

/-! ## Patterns (R5 to R8) -/

/-- R7: whether a cell is suppressed. A lead is lower than its cell (R2), so 128 tests reach the end of every chain. -/
def suppressed (plane : Plane) : Nat → Fin 128 → Bool
  | 0, _ => true
  | fuel + 1, cell =>
    match plane[cell].render with
    | .raw => false
    | .glyph => false
    | .suppress =>
      if plane[cell].code ≠ 0 then false
      else
        match plane[cell].lead with
        | none => true
        | some lead => suppressed plane fuel lead

/-- The bit of pattern line 7 when mark is on. -/
def markBits (mark : Bool) : Byte := if mark then 0x80 else 0

/-- R6, R8: the pattern of a cell, line n in bit n. -/
def patternOf (plane : Plane) (glyphs : Vector Byte 64) (cell : Fin 128) : Byte :=
  let r := plane[cell]
  match r.render with
  | .raw => r.code
  | .glyph => byteAt glyphs r.code.toNat ||| markBits r.mark
  | .suppress =>
    if suppressed plane 128 cell then markBits r.mark else byteAt glyphs r.code.toNat ||| markBits r.mark

/-! ## Frame slots and the CRC (chapter 9) -/

def State.slot (s : State) : SlotId → Slot
  | .one => s.relay.slot1
  | .two => s.relay.slot2

def State.putSlot (s : State) (id : SlotId) (slot : Slot) : State :=
  match id with
  | .one => s.withRelay { s.relay with slot1 := slot }
  | .two => s.withRelay { s.relay with slot2 := slot }

/-- Bytes written over a frame where it lies: its length stays (R175, R176). -/
def State.editFrame (s : State) (id : SlotId) (at_ : Nat) (new : List Byte) : State :=
  s.putSlot id { s.slot id with bytes := overwrite (s.slot id).bytes at_ new }

/-- One bit of the CRC register of R169: shift left, and the polynomial x^16 + x^12 + x^5 + 1 on a carry. -/
def crcShift (crc : Half) : Half :=
  if crc.getLsbD 15 then (crc <<< 1) ^^^ 0x1021#16 else crc <<< 1

/-- `n` bits of the CRC register. -/
def crcShifts : Nat → Half → Half
  | 0, crc => crc
  | n + 1, crc => crcShifts n (crcShift crc)

/-- R169: the CRC of bytes, each most significant bit first, from a given register. -/
def crcFrom : Half → List Byte → Half
  | crc, [] => crc
  | crc, b :: rest => crcFrom (crcShifts 8 (crc ^^^ (joinBytes b 0))) rest

/-- R169: starting value all ones, no final inversion. -/
def crcOf (bytes : List Byte) : Half := crcFrom 0xFFFF#16 bytes

/-- R168, R169: the header and payload of a frame, and the two CRC bytes after them. -/
def frameBody (bytes : List Byte) : List Byte := bytes.take (bytes.length - 2)
def frameCrc (bytes : List Byte) : List Byte := bytes.drop (bytes.length - 2)

/-- The CRC in the two bytes that carry it, most significant first. -/
def crcBytes (bytes : List Byte) : List Byte := [hiByte (crcOf bytes), loByte (crcOf bytes)]

/-- R168: a frame closed by ED is good. -/
def Slot.good (slot : Slot) : Bool :=
  6 ≤ slot.bytes.length && (slot.bytes.getD 3 0).toNat ≤ 248 &&
    (slot.bytes.getD 3 0).toNat == slot.bytes.length - 6 && !slot.invalid.any id &&
    frameCrc slot.bytes == crcBytes (frameBody slot.bytes)

/-- The payload of a frame (R168). -/
def framePayload (bytes : List Byte) : List Byte := (frameBody bytes).drop 4

/-- A slot becomes READY behind those already ready (R177). -/
def State.markReady (s : State) (id : SlotId) (mark : EndMark) : State :=
  let s := s.putSlot id { s.slot id with use := .ready, mark := mark }
  s.withRelay { s.relay with readyOrder := s.relay.readyOrder ++ [id] }

/-- R169, R175: the CRC computed afresh, ED as the end mark, READY. -/
def State.readyGood (s : State) (id : SlotId) : State :=
  (s.editFrame id ((s.slot id).bytes.length - 2) (crcBytes (frameBody (s.slot id).bytes))).markReady id .ed

/-- R178: one frame more that could not be passed on intact. -/
def State.countError (s : State) : State :=
  s.withRelay { s.relay with errors := saturate 65535 (s.relay.errors + 1) }

def State.setReceive (s : State) (rx : Receive) : State := s.withRelay { s.relay with rx := rx }

/-! ## Settings and resets -/

/-- R34: a restart waits for a generator. -/
def Blink.wait (g : Blink) : Blink := { g with restart := true }

/-- R22, R46, R157, R196: NODE_RESET with scope DISPLAY at its effect. -/
def State.resetDisplay (s : State) : State :=
  (((s.withCells CellStore.reset).withSettings (resetGroup settingInDisplayGroup s.settings)).withDrive
    { s.drive with blinkA := s.drive.blinkA.wait, blinkB := s.drive.blinkB.wait }).setFallbackHold false

/-- R114, R196: scope EVENTS. -/
def State.resetEvents (s : State) : State :=
  (s.withQueue EventQueue.reset).withSettings (resetGroup settingInEventGroup s.settings)

/-- R22, R46, R68, R92, R114, R130, R145, R157, R178, R196: scope FULL. -/
def State.resetFull (s : State) : State :=
  { s with
    cells := CellStore.reset
    settings := defaultSettings
    drive := { s.drive with blinkA := s.drive.blinkA.wait, blinkB := s.drive.blinkB.wait }
    tables := TableStore.reset
    scanner := Scanner.reset
    queue := EventQueue.reset
    light := LightUnit.reset
    tone := none
    node := { s.node with state := .online, time := 0, silence := 0, fallbackHold := false }
    relay := { s.relay with errors := 0 } }

/-- R192: the effect of a scope. -/
def State.resetScope (s : State) : Scope → State
  | .display => s.resetDisplay
  | .events => s.resetEvents
  | .full => s.resetFull

end Sys2Proof.Machine
end

