-- ==== Sys2Proof/Machine/Engine.lean ====
section
/-! DEFINITION. The Request Engine: reading items, the room check, reply items, the end of processing (chapter 10), and
the requests that belong to it and to Node Control. -/

namespace Sys2Proof.Machine

/-! ## Items (R184, R187) -/

/-- The next item of a frame in process: malformed with the code read, or whole with its code and parameter bytes. -/
inductive Item
  | malformed (code : Byte)
  | whole (code : Byte) (params : List Byte)
  deriving DecidableEq, Repr

/-- R184, R187: the item at the front of the bytes that remain. -/
def itemAt : List Byte → Item
  | [] => .malformed 0
  | [code] => .malformed code
  | code :: length :: rest =>
    if length.toNat ≤ rest.length then .whole code (rest.take length.toNat) else .malformed code

/-- The item at the parse position, read from the payload as it was received (R184). -/
def Processing.item (p : Processing) : Item := itemAt (p.request.drop p.parse)

/-- The request count (R184). -/
def Processing.count (p : Processing) : Nat := (p.request.getD 0 0).toNat

/-- R189: the room left. -/
def Processing.room (p : Processing) : Nat := p.request.length - p.reply

/-- R189: the largest reply item of an item, from its parameters as given; a parameter byte the item is too short to
hold counts as 0 (assumption 12). -/
def largestReply (code : Byte) (params : List Byte) : Nat :=
  if code = 0x01 then 33
  else if code = 0x02 then 3 + min 24 (params.getD 1 0).toNat
  else if code = 0x03 then 4
  else if code = 0x20 ∨ code = 0x21 ∨ code = 0x33 ∨ code = 0x41 ∨ code = 0x42 then 4
  else if code = 0x23 ∨ code = 0x40 then 5
  else if code = 0x32 then 6
  else if code = 0x22 then
    if params.getD 3 0 = 1 then 3 + min 64 (params.getD 2 0).toNat
    else 3 + 3 * min 64 (params.getD 2 0).toNat
  else if code = 0x31 then
    match tableOfByte (params.getD 0 0) with
    | none => 3
    | some t =>
      if (params.getD 1 0).toNat ≤ 1 then 4 + min ((params.getD 4 0).toNat * tableEntryBytes t) 240 else 3
  else 3

/-! ## Answering (R185, R186, R191) -/

/-- What an owner answers to a request: the state after it, a status, the data, and for NODE_RESET that processing
stops and which reset is due. -/
structure Served where
  state : State
  status : Status
  data : List Byte
  stop : Bool
  due : Option Scope
  deriving DecidableEq, Repr

/-- A request executed, with its data. -/
def served (s : State) (data : List Byte) : Served := ⟨s, .ok, data, false, none⟩

/-- A request refused: nothing changes (R191). -/
def refusedWith (s : State) (status : Status) (data : List Byte) : Served := ⟨s, status, data, false, none⟩

/-- A reply item (R185). -/
def replyItem (code : Byte) (status : Status) (data : List Byte) : List Byte :=
  [code, statusByte status, natByte data.length] ++ data

/-- The reply item written at the reply position of the frame's payload, which begins at byte 4 of the frame. -/
def State.writeReply (s : State) (p : Processing) (item : List Byte) : State :=
  s.editFrame p.slot (4 + p.reply) item

/-- R185, R186: the rest of the payload set to 0, items answered, the REPLY header. A payload of length 0 has no items
answered byte (R184). -/
def State.closeReply (s : State) (p : Processing) : State :=
  ((s.editFrame p.slot (4 + p.reply) (List.replicate (p.request.length - p.reply) 0)).editFrame p.slot 4
    ([natByte p.answered].take p.request.length)).editFrame p.slot 0
      [replyHeaderByte p.truncated p.resetStop, p.address]

/-- R186, R192, R193: processing ends. The reply is closed unless the frame is a broadcast, and then the frame is readied,
or waits for the effect of a due NODE_RESET. -/
def State.endProcessing (s : State) (p : Processing) (due : Option Scope) : State :=
  let s := if p.broadcast then s else s.closeReply p
  match due with
  | none => (s.readyGood p.slot).withEngine .idle
  | some scope => s.withEngine (.due p.slot scope)

/-- R186: after an item, processing stops when it must or when every item of the request count has been taken. -/
def State.afterItem (s : State) (p : Processing) (stop : Bool) (due : Option Scope) : State :=
  if stop || p.count ≤ p.answered then s.endProcessing p due else s.withEngine (.taking p)

/-- The processing state after an item that lay whole and wrote `written` bytes of reply. -/
def Processing.past (p : Processing) (params : List Byte) (written : Nat) : Processing :=
  { p with parse := p.parse + 2 + params.length, answered := p.answered + 1, reply := p.reply + written }

/-- R183: processing begins at the hand-over. A COMMAND with no payload, or with request count 0, has no item to take. -/
def State.beginProcessing (s : State) (slot : SlotId) (broadcast : Bool) (address : Byte) (request : List Byte) :
    State :=
  s.afterItem ⟨slot, broadcast, address, request, 1, 0, 1, false, false⟩ false none

/-- The frame in process, if any. -/
def State.processing (s : State) : Option Processing :=
  match s.engine with
  | .idle => none
  | .taking p => some p
  | .due _ _ => none

/-- The Request Engine holds a frame (R183, R192). -/
def State.engineBusy (s : State) : Bool := s.engine != .idle

/-- One item answered in an addressed COMMAND (R186 steps 2 to 5). -/
def State.answerItem (s : State) (p : Processing) (code : Byte) (params : List Byte) (serve : State → Served) : State :=
  if largestReply code params ≤ p.room then
    let r := serve s
    (r.state.writeReply p (replyItem code r.status r.data)).afterItem
      { p.past params (3 + r.data.length) with resetStop := p.resetStop || r.stop } r.stop r.due
  else s.endProcessing { p with truncated := true } none

/-- One item taken in a broadcast (R193): no room check and no reply. -/
def State.broadcastItem (s : State) (p : Processing) (params : List Byte) (executes : Bool) (serve : State → Served) :
    State :=
  if executes then
    let r := serve s
    r.state.afterItem (p.past params 0) r.stop r.due
  else s.afterItem (p.past params 0) false none

/-- A request command: the Request Engine takes the next item of the frame in process, when that item is this request
(assumption 9); the owner's part is `serve`. -/
def State.takeItem (s : State) (c : Instr) (serve : State → Served) : State :=
  match s.processing with
  | none => s
  | some p =>
    match p.item with
    | .malformed _ => s
    | .whole code params =>
      if requestOf code params = some c then
        if p.broadcast then s.broadcastItem p params c.inBroadcast serve
        else s.answerItem p code params serve
      else s

/-! ## Malformed items and unknown requests -/

/-- R187: a malformed item is answered BAD_REQUEST when three bytes fit, and processing stops. -/
def State.takeMalformed (s : State) : State :=
  match s.processing with
  | none => s
  | some p =>
    match p.item with
    | .whole _ _ => s
    | .malformed code =>
      if p.broadcast then s.endProcessing p none
      else if 3 ≤ p.room then
        (s.writeReply p (replyItem code .badRequest [])).endProcessing
          { p with answered := p.answered + 1, reply := p.reply + 3 } none
      else s.endProcessing { p with truncated := true } none

/-- R187. -/
def execMalformedItem (s : State) : Host.Outcome State Fault Refusal := .next s.takeMalformed

/-- R188, R193: an item that fails the form check is answered BAD_REQUEST, or skipped in a broadcast, and processing
goes on. -/
def State.takeUnknown (s : State) (code : Byte) (params : List Byte) : State :=
  match s.processing with
  | none => s
  | some p =>
    if p.item = .whole code params ∧ requestOf code params = none then
      if p.broadcast then s.broadcastItem p params false (served · [])
      else s.answerItem p code params (refusedWith · .badRequest [])
    else s

/-- R188. -/
def execUnknownRequest (code : Byte) (params : List Byte) (s : State) : Host.Outcome State Fault Refusal :=
  .next (s.takeUnknown code params)

/-! ## READ_STATUS (R194, R195, section 12.5) -/

/-- The generations of tables 0..6. -/
def generations (t : TableStore) : List Byte :=
  [t.glyph.generation, t.route.generation, t.dim.generation, t.keymap.generation, t.scan.generation,
    t.light.generation, t.tone.generation]

/-- The 30 bytes of READ_STATUS. -/
def State.statusData (s : State) : List Byte :=
  [nodeStateByte s.node.state, s.node.address.getD 0, hiByte s.node.time, loByte s.node.time,
    s.cells.shownTag, flagByte s.cells.pendingValid,
    if s.cells.pendingValid then s.cells.pendingTag else 0] ++
  generations s.tables ++
  [s.tables.pendingSet.setWidth 8, natByte s.queue.entries.length, natByte s.queue.unsentCount,
    s.queue.nextSeq, natByte s.queue.pendingLoss] ++
  natBytes s.relay.errors ++ natBytes s.light.result ++
  [flagByte s.light.overflow, natByte s.light.level, natByte s.drive.level, toneStateByte s.tone,
    tonePatternByte s.tone, flagByte s.node.fallbackHold, scanModeByte s.scanner.mode]

/-- R195: the readings, and the link error count to 0 after its value when clear-errors is on. -/
def State.serveReadStatus (clearErrors : Bool) (s : State) : Served :=
  served (if clearErrors then s.withRelay { s.relay with errors := 0 } else s) s.statusData

def execReadStatus (clearErrors : Bool) (s : State) : Host.Outcome State Fault Refusal :=
  .next (s.takeItem (.readStatus clearErrors) (State.serveReadStatus clearErrors))

/-! ## Settings (R197, R198) -/

/-- R197. -/
def State.serveSettingRead (first count : Byte) (s : State) : Served :=
  if first.toNat ≤ 23 ∧ 1 ≤ count.toNat ∧ count.toNat ≤ 24 ∧ first.toNat + count.toNat - 1 ≤ 23 then
    served s ((List.range count.toNat).map fun i => byteAt s.settings (first.toNat + i))
  else refusedWith s .badRange []

def execSettingRead (first count : Byte) (s : State) : Host.Outcome State Fault Refusal :=
  .next (s.takeItem (.settingRead first count) (State.serveSettingRead first count))

/-- R198: the pair's id names a setting and its value lies in that setting's range. -/
def pairInRange (pair : Byte × Byte) : Bool := (settingOfId pair.1).any fun n => settingInRange n pair.2

/-- R198: the values stored in the order given. -/
def storePairs : List (Byte × Byte) → Vector Byte 24 → Vector Byte 24
  | [], st => st
  | pair :: rest, st =>
    storePairs rest (match settingOfId pair.1 with | none => st | some n => storeSetting st n pair.2)

/-- A list of pairs writes one of these settings. -/
def writesAny (pairs : List (Byte × Byte)) (names : List Setting) : Bool :=
  pairs.any fun pair => (settingOfId pair.1).any fun n => names.contains n

/-- R34: a write of either length of a generator sets its restart waiting. -/
def State.blinkWrites (s : State) (pairs : List (Byte × Byte)) : State :=
  s.withDrive
    { s.drive with
      blinkA := if writesAny pairs [.blinkAOn, .blinkAOff] then s.drive.blinkA.wait else s.drive.blinkA
      blinkB := if writesAny pairs [.blinkBOn, .blinkBOff] then s.drive.blinkB.wait else s.drive.blinkB }

/-- R123: a write of LIGHT_MODE or LIGHT_WINDOW discards the measurement in flight and begins one in the stored mode. -/
def State.lightWrites (s : State) (pairs : List (Byte × Byte)) : State :=
  if writesAny pairs [.lightMode, .lightWindow] then s.beginMeasurement else s

/-- R159: a write of LOSS_TIMEOUT in ONLINE restarts the link-loss timer. -/
def State.timeoutWrites (s : State) (pairs : List (Byte × Byte)) : State :=
  if writesAny pairs [.lossTimeout] ∧ s.node.state = .online then s.restartTimer else s

/-- R198: every value stored, and then the owners act once. -/
def State.writeSettings (s : State) (pairs : List (Byte × Byte)) : State :=
  (((s.withSettings (storePairs pairs s.settings)).blinkWrites pairs).lightWrites pairs).timeoutWrites pairs

/-- R198: the first pair that fails refuses the whole request. -/
def State.serveSettingWrite (pairs : List (Byte × Byte)) (s : State) : Served :=
  match pairs.find? fun pair => !pairInRange pair with
  | some pair => refusedWith s .badRange [pair.1]
  | none => served (s.writeSettings pairs) []

def execSettingWrite (pairs : List (Byte × Byte)) (s : State) : Host.Outcome State Fault Refusal :=
  .next (s.takeItem (.settingWrite pairs) (State.serveSettingWrite pairs))

/-! ## Node Control's requests (R165, R154, R155) -/

/-- R165. -/
def State.serveSetTime (time : Half) (s : State) : Served := served (s.withNode { s.node with time := time }) []

def execSetTime (time : Half) (s : State) : Host.Outcome State Fault Refusal :=
  .next (s.takeItem (.setTime time) (State.serveSetTime time))

/-- R154: in ONLINE the node is parked; otherwise nothing changes (assumption 17 for the states R154 excludes). -/
def State.serveQuiesce (s : State) : Served := served (if s.node.state = .online then s.parkNode else s) []

def execQuiesce (s : State) : Host.Outcome State Fault Refusal := .next (s.takeItem .quiesce State.serveQuiesce)

/-- R155. -/
def State.serveResume (s : State) : Served := served (if s.node.state = .quiescent then s.wakeNode else s) []

def execResume (s : State) : Host.Outcome State Fault Refusal := .next (s.takeItem .resume State.serveResume)

/-! ## NODE_RESET (R192) -/

/-- The scope a byte names (section 12.3). -/
def scopeOf (b : Byte) : Option Scope :=
  if b = 1 then some .display else if b = 2 then some .events else if b = 3 then some .full else none

/-- R192: OK with the reset due, or BAD_RANGE; processing stops in either case. -/
def State.serveNodeReset (scope : Byte) (s : State) : Served :=
  match scopeOf scope with
  | none => ⟨s, .badRange, [], true, none⟩
  | some scope => ⟨s, .ok, [], true, some scope⟩

def execNodeReset (scope : Byte) (s : State) : Host.Outcome State Fault Refusal :=
  .next (s.takeItem (.nodeReset scope) (State.serveNodeReset scope))

/-- R192: a due reset takes effect, and then the frame is readied. -/
def State.resetDue (s : State) : State :=
  match s.engine with
  | .idle => s
  | .taking _ => s
  | .due slot scope => ((s.resetScope scope).readyGood slot).withEngine .idle

/-- R192. -/
def execResetEffect (s : State) : Host.Outcome State Fault Refusal := .next s.resetDue

end Sys2Proof.Machine
end

