-- ==== Sys2Proof/Machine/Cells.lean ====
section
/-! DEFINITION. The Cell Store's requests: WRITE_CELLS, FILL_CELLS, READ_CELLS and COMMIT (chapter 1). -/

namespace Sys2Proof.Machine

/-! ## Writing the draft (R9 to R12) -/

/-- R9 step 3 for a run: each record against its own address, lowest first; the first failure with its address. -/
def recordsFor : Nat → List RecordBytes → Except (Status × Nat) (List CellRecord)
  | _, [] => .ok []
  | target, r :: rest =>
    match recordFor target r with
    | .error status => .error (status, target)
    | .ok record =>
      match recordsFor (target + 1) rest with
      | .error failure => .error failure
      | .ok records => .ok (record :: records)

/-- A run of records written to the draft, from `first` on. -/
def State.writeDraft (s : State) (first : Nat) (records : List CellRecord) : State :=
  s.withCells { s.cells with draft := overwriteVector s.cells.draft first records }

/-- R9 steps 2 and 3 for WRITE_CELLS. -/
def State.writeRecords (s : State) (first : Byte) (records : List RecordBytes) : Served :=
  if first.toNat + records.length - 1 ≤ 127 then
    match recordsFor first.toNat records with
    | .error failure => refusedWith s failure.1 [natByte failure.2]
    | .ok written => served (s.writeDraft first.toNat written) []
  else refusedWith s .badRange [first]

/-- R9, R11. -/
def State.serveWriteCells (first : Byte) (bytes : List Byte) (s : State) : Served :=
  match recordsOf bytes with
  | none => refusedWith s .badRange [first]
  | some records =>
    if first.toNat ≤ 127 ∧ 1 ≤ records.length ∧ records.length ≤ 64 then s.writeRecords first records
    else refusedWith s .badRange [first]

/-- R11. -/
def execWriteCells (first : Byte) (records : List Byte) (s : State) : Host.Outcome State Fault Refusal :=
  .next (s.takeItem (.writeCells first records) (State.serveWriteCells first records))

/-- R12: a record written at `n` addresses from `at_` on, `stride` apart. -/
def fillPlane (record : CellRecord) (stride : Nat) : Nat → Nat → Plane → Plane
  | 0, _, plane => plane
  | n + 1, at_, plane => fillPlane record stride n (at_ + stride) (overwriteVector plane at_ [record])

/-- The draft after FILL_CELLS. -/
def State.fillDraft (s : State) (first count stride : Nat) (record : CellRecord) : State :=
  s.withCells { s.cells with draft := fillPlane record stride count first s.cells.draft }

/-- R9, R12: the record is checked once, against the lowest target address. -/
def State.serveFillCells (first count stride : Byte) (record : RecordBytes) (s : State) : Served :=
  if first.toNat ≤ 127 ∧ 1 ≤ count.toNat ∧ count.toNat ≤ 128 ∧ 1 ≤ stride.toNat ∧ stride.toNat ≤ 8 ∧
      first.toNat + (count.toNat - 1) * stride.toNat ≤ 127 then
    match recordFor first.toNat record with
    | .error status => refusedWith s status [first]
    | .ok written => served (s.fillDraft first.toNat count.toNat stride.toNat written) []
  else refusedWith s .badRange [first]

/-- R12. -/
def execFillCells (first count stride : Byte) (record : RecordBytes) (s : State) :
    Host.Outcome State Fault Refusal :=
  .next (s.takeItem (.fillCells first count stride record) (State.serveFillCells first count stride record))

/-! ## Reading cells (R14, R15) -/

/-- The plane a parameter names: 0 DRAFT, 1 PENDING, 2 SHOWN (section 12.3). -/
def CellStore.planeOf (c : CellStore) (plane : Byte) : Option Plane :=
  if plane = 0 then some c.draft
  else if plane = 1 then some c.pendingPlane
  else if plane = 2 then some c.shown
  else none

/-- One cell as READ_CELLS returns it: its record for option 0, its pattern for option 1. -/
def readCell (plane : Plane) (glyphs : Vector Byte 64) (option : Byte) (cell : Fin 128) : List Byte :=
  if option = 0 then recordBytes plane[cell] else [patternOf plane glyphs cell]

/-- The cells first, first + 1, … of a reading, `count` of them. -/
def readCellRun (plane : Plane) (glyphs : Vector Byte 64) (option : Byte) : Nat → Nat → List Byte
  | 0, _ => []
  | n + 1, cell =>
    (if h : cell < 128 then readCell plane glyphs option ⟨cell, h⟩ else []) ++
      readCellRun plane glyphs option n (cell + 1)

/-- R14, R15. -/
def State.serveReadCells (plane first count option : Byte) (s : State) : Served :=
  match s.cells.planeOf plane with
  | none => refusedWith s .badRange []
  | some p =>
    if option.toNat ≤ 1 ∧ first.toNat ≤ 127 ∧ 1 ≤ count.toNat ∧ count.toNat ≤ 64 ∧
        first.toNat + count.toNat - 1 ≤ 127 then
      if plane = 1 ∧ s.cells.pendingValid = false then refusedWith s .badState []
      else served s (readCellRun p s.tables.glyph.active option count.toNat first.toNat)
    else refusedWith s .badRange []

/-- R14. -/
def execReadCells (plane first count option : Byte) (s : State) : Host.Outcome State Fault Refusal :=
  .next (s.takeItem (.readCells plane first count option) (State.serveReadCells plane first count option))

/-! ## COMMIT (R16, R17) -/

/-- R16: the draft becomes the pending picture with its tag. -/
def State.commitDraft (s : State) (tag : Byte) : State :=
  s.withCells { s.cells with pendingPlane := s.cells.draft, pendingTag := tag, pendingValid := true }

/-- R17: SUPERSEDED and the superseded tag, 0 when none is. -/
def State.superseded (s : State) : List Byte :=
  [flagByte s.cells.pendingValid, if s.cells.pendingValid then s.cells.pendingTag else 0]

def State.serveCommit (tag : Byte) (s : State) : Served := served (s.commitDraft tag) s.superseded

/-- R16. -/
def execCommit (tag : Byte) (s : State) : Host.Outcome State Fault Refusal :=
  .next (s.takeItem (.commit tag) (State.serveCommit tag))

end Sys2Proof.Machine
end

