-- ==== Sys2Proof/Machine/Events.lean ====
section
/-! DEFINITION. The Event Queue's commands: ACK_EVENTS and GO_BACK (chapter 5). -/

namespace Sys2Proof.Machine

/-- The entries after the one with seq `seq`, when an entry with that seq is present and SENT (R110). -/
def entriesAfter (seq : Byte) : List Entry → Option (List Entry)
  | [] => none
  | e :: rest => if e.seq = seq then (if e.isSent then some rest else none) else entriesAfter seq rest

/-- R111: pending-loss, when there is any, turns into a LOST entry. -/
def EventQueue.recordLoss (q : EventQueue) (time : Half) : EventQueue :=
  if q.pendingLoss = 0 then q else { q.append .lost (natByte q.pendingLoss) time with pendingLoss := 0 }

/-- The queue after an acknowledgment that leaves `rest`. -/
def EventQueue.acknowledge (q : EventQueue) (rest : List Entry) (time : Half) : EventQueue :=
  { q with entries := rest }.recordLoss time

/-- R110, R111. -/
def State.serveAckEvents (seq : Byte) (s : State) : Served :=
  match entriesAfter seq s.queue.entries with
  | none => refusedWith s .badAck []
  | some rest =>
    served (s.withQueue (s.queue.acknowledge rest s.node.time))
      [natByte (s.queue.entries.length - rest.length),
        natByte (s.queue.acknowledge rest s.node.time).entries.length]

/-- R110. -/
def execAckEvents (seq : Byte) (s : State) : Host.Outcome State Fault Refusal :=
  .next (s.takeItem (.ackEvents seq) (State.serveAckEvents seq))

/-- A gather pass can be taken (R106). -/
def State.gathers (s : State) : Bool := s.node.state == .online || s.node.state == .quiescent

/-- The first two steps of a gather pass whose aging brings the head to RESEND_AFTER (R107, assumption 28). -/
def State.goBack (s : State) : State :=
  if s.gathers ∧ s.queue.ageAll.goBackDue (s.setting .resendAfter).toNat then
    s.withQueue s.queue.ageAll.unsendAll
  else s

/-- R107. -/
def execGoBack (s : State) : Host.Outcome State Fault Refusal := .next s.goBack

end Sys2Proof.Machine
end

