-- ==== Sys2Proof/Machine/Keys.lean ====
section
/-! DEFINITION. The Key Scanner: the sample, debounce, press records and key events, wake detection, and its part of a
sweep start (chapter 4). -/

namespace Sys2Proof.Machine

/-! ## The matrix -/

/-- The columns the scanner drives in a sense window, column c in bit c − 1 (R28, R72, R88). -/
def State.scanDrive (s : State) : Half :=
  match s.scanner.mode with
  | .off => 0
  | .full => scanColumns s.tables.scan.active s.scanner.step
  | .wake => 0xFFFF

/-- The column of a key and its return, both from 0 (chapter 4, "key (r − 1) × 16 + (c − 1)"). -/
def keyColumn (k : Fin 128) : Nat := k.val % 16
def keyReturn (k : Fin 128) : Nat := k.val / 16

/-- R70: what the returns read, K1 in bit 0, while `columns` are driven and the keys of `closed` are closed. -/
def matrixReturns (closed : List (Fin 128)) (columns : Half) : Byte :=
  closed.foldr (fun k acc => if columns.getLsbD (keyColumn k) then (1#8 <<< keyReturn k) ||| acc else acc) 0

/-! ## Debounce (R77) -/

def State.pressCount (s : State) : Nat := (s.setting .pressCount).toNat
def State.releaseCount (s : State) : Nat := (s.setting .releaseCount).toNat

/-- The threshold for a stable level. -/
def State.threshold (s : State) (down : Bool) : Nat := if down then s.releaseCount else s.pressCount

/-- R77: a differing sample that changes the level. -/
def Debounce.turns (d : Debounce) (closed : Bool) (threshold : Nat) : Bool :=
  closed != d.down && threshold ≤ d.count + 1

/-- R77: a sample applied to a record. -/
def Debounce.sample (d : Debounce) (closed : Bool) (threshold : Nat) : Debounce :=
  if closed = d.down then { d with count := 0 }
  else if threshold ≤ d.count + 1 then ⟨!d.down, 0⟩
  else { d with count := d.count + 1 }

/-! ## Press records and key events (R79 to R82) -/

def State.key (s : State) (k : Fin 128) : KeyRecord := s.scanner.keys[k]

def State.putKey (s : State) (k : Fin 128) (r : KeyRecord) : State :=
  s.withScanner { s.scanner with keys := overwriteVector s.scanner.keys k.val [r] }

/-- R79: the press record of a key that becomes DOWN. -/
def State.newPress (s : State) (k : Fin 128) : PressRecord where
  code := keymapCode s.tables.keymap.active k.val
  enabled := keymapFlag s.tables.keymap.active k.val 0
  reportUp := keymapFlag s.tables.keymap.active k.val 1
  repeats := keymapFlag s.tables.keymap.active k.val 2
  silence := keymapFlag s.tables.keymap.active k.val 3
  pressTime := s.node.time
  held := 0
  gap := none

/-- R87: a click claim is made for an enabled press. -/
def State.clicks (s : State) (press : PressRecord) : Bool :=
  press.enabled && s.setting .clickPattern != 255 && (s.node.state == .online || s.node.state == .standalone)

/-- R80 step 1. -/
def State.reportDown (s : State) (press : PressRecord) : State :=
  if press.enabled then s.submit .keyDown press.code else s

/-- R80 step 2. -/
def State.pressSilence (s : State) (press : PressRecord) : State :=
  if press.silence then s.claimSilence else s

/-- R80 step 3. -/
def State.pressClick (s : State) (press : PressRecord) : State :=
  if s.clicks press then s.claimClick (s.setting .clickPattern) else s

/-- R79, R80: a key becomes DOWN. -/
def State.becomeDown (s : State) (k : Fin 128) : State :=
  (((s.putKey k ⟨⟨true, 0⟩, some (s.newPress k)⟩).reportDown (s.newPress k)).pressSilence (s.newPress k)).pressClick
    (s.newPress k)

/-- R81: KEY_UP of a press that reports it. -/
def State.reportUp (s : State) : Option PressRecord → State
  | none => s
  | some press => if press.enabled && press.reportUp then s.submit .keyUp press.code else s

/-- R81: a key becomes UP, and its press record is discarded. -/
def State.becomeUp (s : State) (k : Fin 128) : State := (s.putKey k KeyRecord.up).reportUp (s.key k).press

/-- R82: a repeat of this press is due. -/
def State.repeatDue (s : State) (press : PressRecord) : Bool :=
  press.enabled && press.repeats &&
    match press.gap with
    | none => (s.setting .repeatDelay).toNat * 10 ≤ press.held
    | some gap => (s.setting .repeatInterval).toNat * 10 ≤ gap

/-- R82: a held key at a sample: its record debounced to `d`, and a repeat when one is due. -/
def State.holdKey (s : State) (k : Fin 128) (d : Debounce) : State :=
  match (s.key k).press with
  | none => s.putKey k ⟨d, none⟩
  | some press =>
    if s.repeatDue press then (s.putKey k ⟨d, some { press with gap := some 0 }⟩).submit .keyRepeat press.code
    else s.putKey k ⟨d, some press⟩

/-- R71, R77: one key's sample. -/
def State.sampleKey (s : State) (k : Fin 128) (closed : Bool) : State :=
  let d := (s.key k).debounce
  if d.turns closed (s.threshold d.down) then (if closed then s.becomeDown k else s.becomeUp k)
  else if d.down then s.holdKey k (d.sample closed (s.threshold d.down))
  else s.putKey k ⟨d.sample closed (s.threshold d.down), (s.key k).press⟩

/-! ## The sample (R70 to R72, R88) -/

/-- R70: a key of a driven column takes its return's reading; the others are not sampled. -/
def State.sampleIn (columns : Half) (returns : Byte) (s : State) (k : Fin 128) : State :=
  if columns.getLsbD (keyColumn k) then s.sampleKey k (returns.getLsbD (keyReturn k)) else s

/-- R71: the keys of the current step in ascending key number. -/
def State.sampleKeys (s : State) (columns : Half) (returns : Byte) : State :=
  (List.finRange 128).foldl (State.sampleIn columns returns) s

/-- R72: the step position after a sample. -/
def State.advanceStep (s : State) : State :=
  s.withScanner
    { s.scanner with
      step := if s.scanner.step < scanStepCount s.tables.scan.active then s.scanner.step + 1 else 1 }

/-- R89, R156: a wake report; only a QUIESCENT node wakes. -/
def State.reportWake (s : State) : State :=
  if s.node.state = .quiescent then s.wakeNode.submit .wakeKey 0 else s

def State.putAnyKey (s : State) (d : Debounce) : State := s.withScanner { s.scanner with anyKey := some d }

/-- R88, R89: an any-key sample. -/
def State.sampleAnyKey (s : State) (closed : Bool) : State :=
  match s.scanner.anyKey with
  | none => s
  | some d =>
    if d.turns closed (s.threshold d.down) && closed then (s.putAnyKey ⟨true, 0⟩).reportWake
    else s.putAnyKey (d.sample closed (s.threshold d.down))

/-- R71: the sample of a sense window in which these columns were driven, by effective mode. -/
def State.takeSample (s : State) (columns : Half) (returns : Byte) : State :=
  match s.scanner.mode with
  | .off => s
  | .full => (s.sampleKeys columns returns).advanceStep
  | .wake => s.sampleAnyKey (returns != 0)

/-- The sense window has ended (R28). -/
def State.endWindow (s : State) : State := s.withDrive { s.drive with window := .ended }

/-- A sense window is in progress; none is in a hard reset (R71). -/
def State.senses (s : State) : Bool := !s.inReset && s.drive.window == .sense

/-- R71: the sample is taken at the end of a sense window, and at no other time. In OFF, where R71 takes no sample, the
command only ends the sense window (the model's choice, assumption 25). -/
def execKeySample (returns : Byte) (s : State) : Host.Outcome State Fault Refusal :=
  .next (if s.senses then (s.takeSample s.scanDrive returns).endWindow else s)

/-! ## The single happenings of a sample (assumption 4) -/

/-- The key is sampled at the present step (R70). The rows taken alone ask for no sense window, which is the model's choice
(assumption 25). -/
def State.sampled (s : State) (k : Fin 128) : Bool :=
  s.scanner.mode == .full && s.scanDrive.getLsbD (keyColumn k)

/-- The key would become DOWN at a closed sample (R77, R80). -/
def State.nearlyDown (s : State) (k : Fin 128) : Bool :=
  s.sampled k && !(s.key k).debounce.down && s.pressCount ≤ (s.key k).debounce.count + 1

/-- The key would become UP at an open sample (R77, R81). -/
def State.nearlyUp (s : State) (k : Fin 128) : Bool :=
  s.sampled k && (s.key k).debounce.down && s.releaseCount ≤ (s.key k).debounce.count + 1

/-- The key is held, stays DOWN at this sample, and a repeat is due (R82). -/
def State.repeats (s : State) (k : Fin 128) (closed : Bool) : Bool :=
  s.sampled k && (s.key k).debounce.down && !(s.key k).debounce.turns closed s.releaseCount &&
    (s.key k).press.any s.repeatDue

/-- R80. -/
def execBecomingDown (key : Fin 128) (s : State) : Host.Outcome State Fault Refusal :=
  .next (if s.nearlyDown key then s.becomeDown key else s)

/-- R81. -/
def execBecomingUp (key : Fin 128) (s : State) : Host.Outcome State Fault Refusal :=
  .next (if s.nearlyUp key then s.becomeUp key else s)

/-- R82. -/
def execKeyRepeat (key : Fin 128) (closed : Bool) (s : State) : Host.Outcome State Fault Refusal :=
  .next (if s.repeats key closed then s.sampleKey key closed else s)

/-- The any-key record would become DOWN at a closed sample (R88), in any window (the model's choice, assumption 25). -/
def State.nearlyWakes (s : State) : Bool :=
  s.scanner.mode == .wake && s.scanner.anyKey.any fun d => d.turns true (s.threshold d.down)

/-- R156. -/
def execWakeReport (s : State) : Host.Outcome State Fault Refusal :=
  .next (if s.nearlyWakes then s.sampleAnyKey true else s)

/-! ## The scanner at a sweep start (R73 to R75) -/

/-- The columns of steps 1..n. -/
def stepColumns (v : Vector Byte 34) : Nat → Half
  | 0 => 0
  | n + 1 => stepColumns v n ||| scanColumns v (n + 1)

/-- The columns of a schedule (R72). -/
def scheduleColumns (v : Vector Byte 34) : Half := stepColumns v (scanStepCount v)

/-- R73: a key at a SCAN activation. -/
def rescheduled (columns : Half) (k : Fin 128) (r : KeyRecord) : KeyRecord :=
  if columns.getLsbD (keyColumn k) then ⟨{ r.debounce with count := 0 }, r.press⟩ else KeyRecord.up

/-- R73. -/
def Scanner.restart (sc : Scanner) (scan : Vector Byte 34) : Scanner :=
  { sc with
    step := 1
    keys := ⟨⟨(List.finRange 128).map fun k => rescheduled (scheduleColumns scan) k sc.keys[k]⟩, by simp⟩ }

/-- R74. -/
def State.modeDue (s : State) : ScanMode :=
  match s.node.state with
  | .unaddressed => .off
  | .quiescent => if s.setting .wakeByKey = 1 then .wake else .off
  | .online => if s.setting .scanMode = 1 then .full else .off
  | .standalone => if s.setting .scanMode = 1 then .full else .off

/-- R75. -/
def Scanner.enter (sc : Scanner) (mode : ScanMode) : Scanner :=
  if mode = sc.mode then sc
  else
    { mode := mode
      step := if mode = .full then 1 else sc.step
      keys := if sc.mode = .full then keysUp else sc.keys
      anyKey := if mode = .wake then some ⟨true, 0⟩ else none }

/-- A SCAN activation, when there is one at this sweep start, and then the effective mode. -/
def State.scanSweep (s : State) (activated : Bool) : State :=
  s.withScanner ((if activated then s.scanner.restart s.tables.scan.active else s.scanner).enter s.modeDue)

/-! ## A millisecond of the press records (R79) -/

/-- Held time and repeat gap, held at 65535. -/
def PressRecord.millisecond (p : PressRecord) : PressRecord :=
  { p with held := saturate 65535 (p.held + 1), gap := p.gap.map fun g => saturate 65535 (g + 1) }

def KeyRecord.millisecond (r : KeyRecord) : KeyRecord := { r with press := r.press.map PressRecord.millisecond }

def State.keysMillisecond (s : State) : State :=
  s.withScanner { s.scanner with keys := mapVector KeyRecord.millisecond s.scanner.keys }

end Sys2Proof.Machine
end

