-- ==== Sys2Proof/Machine/Tone.lean ====
section
/-! DEFINITION. The Tone Unit's commands and its outputs (chapter 7). -/

namespace Sys2Proof.Machine

/-- R139. -/
def State.serveToneStart (pattern : Byte) (s : State) : Served :=
  if pattern.toNat ≤ 7 then
    if s.node.state = .quiescent then refusedWith s .badState []
    else served (s.startPlay .requested pattern) [flagByte (s.plays .requested)]
  else refusedWith s .badRange []

/-- R139. -/
def execToneStart (pattern : Byte) (s : State) : Host.Outcome State Fault Refusal :=
  .next (s.takeItem (.toneStart pattern) (State.serveToneStart pattern))

/-- R140: the state found, and the channel IDLE. -/
def State.serveToneStop (s : State) : Served := served s.stopPlay [toneStateByte s.tone]

/-- R140. -/
def execToneStop (s : State) : Host.Outcome State Fault Refusal := .next (s.takeItem .toneStop State.serveToneStop)

/-- The segment in progress is on. -/
def Play.isOn (p : Play) : Bool := patternOn p.copy p.segment

/-- R136: the outputs change places and a new half-period begins. -/
def Play.swap (p : Play) : Play := { p with pHigh := !p.pHigh, halfTime := 0 }

/-- R136: at the end of a half-period of an on segment. -/
def State.halfPeriodEnd (s : State) : State :=
  match s.tone with
  | none => s
  | some play => if play.isOn then s.withTone (some play.swap) else s

/-- R136. -/
def execHalfPeriodEnd (s : State) : Host.Outcome State Fault Refusal := .next s.halfPeriodEnd

/-- R136: a segment begins; an on segment begins with TONE_P high. R134 gives the carrier phase no value in an off segment;
that it holds the same there is the model's choice (assumption 26). -/
def Play.begin_ (p : Play) (segment : Nat) : Play :=
  { p with segment := segment, segmentTime := 0, pHigh := true, halfTime := 0 }

/-- R137: the envelope ends, and plays again or the play ends. -/
def Play.envelopeEnd (p : Play) : Option Play :=
  match p.repeatsLeft with
  | none => some (p.begin_ 1)
  | some n => if n ≤ 1 then none else some ({ p with repeatsLeft := some (n - 1) }.begin_ 1)

/-- R136, R137: a segment ends. -/
def Play.segmentEnd (p : Play) : Option Play :=
  if p.segment < patternSegments p.copy then some (p.begin_ (p.segment + 1)) else p.envelopeEnd

/-- R136: the segment in progress has lasted its duration × 10 ms. -/
def Play.segmentOver (p : Play) : Bool := patternDuration p.copy p.segment * 10 ≤ p.segmentTime

/-- R136. -/
def State.segmentEnd (s : State) : State :=
  match s.tone with
  | none => s
  | some play => if play.segmentOver then s.withTone play.segmentEnd else s

/-- R136. -/
def execSegmentEnd (s : State) : Host.Outcome State Fault Refusal := .next s.segmentEnd

/-- R132, R136: TONE_P is high, and TONE_N is high. -/
def State.toneP (s : State) : Bool :=
  match s.tone with
  | none => false
  | some play => !s.inReset && play.isOn && play.pHigh

def State.toneN (s : State) : Bool :=
  match s.tone with
  | none => false
  | some play => !s.inReset && play.isOn && !play.pHigh

/-- A microsecond of an on segment; the half-period ends when it reaches its length (R134, R136; assumptions 2, 24). -/
def Play.microsecond (p : Play) : Play :=
  if p.isOn then
    if patternHalfPeriod p.copy ≤ p.halfTime + 1 then p.swap else { p with halfTime := p.halfTime + 1 }
  else p

/-- A millisecond of a segment, held at its duration (R134, R136; assumption 24). -/
def Play.millisecond (p : Play) : Play :=
  { p with segmentTime := min (patternDuration p.copy p.segment * 10) (p.segmentTime + 1) }

end Sys2Proof.Machine
end

