-- ==== Sys2Proof/Machine/Light.lean ====
section
/-! DEFINITION. The Light Sense Unit's commands, its part of a sweep start, and the microsecond of an idle step
(chapter 6). -/

namespace Sys2Proof.Machine

/-- The measurement in flight goes on in this state, with this count. -/
def State.lightGoes (s : State) (state : LightState) (count : Nat) : State :=
  s.withLight { s.light with state := state, count := count }

/-- R120: 65535 with overflow, and a new measurement in EDGE_WAIT. -/
def State.overflowPeriod (s : State) : State := (s.completeMeasurement 65535 true).lightGoes .edgeWait 0

/-- R119: an edge closes the period in progress and opens the next one. -/
def State.closePeriod (s : State) (result : Nat) : State :=
  (s.completeMeasurement result false).lightGoes .periodCount 0

/-- R119, R121: `us` microseconds pass and LS rises. A count that reaches 65535 on the way completes first, with
overflow, and the edge then opens a period (assumption 6). -/
def State.lsRisingEdge (s : State) (us : Nat) : State :=
  match s.light.state with
  | .stopped => s
  | .edgeWait =>
    if s.light.count + us < 65535 then s.lightGoes .periodCount 0
    else s.overflowPeriod.lightGoes .periodCount 0
  | .periodCount =>
    if s.light.count + us < 65535 then s.closePeriod (s.light.count + us)
    else s.overflowPeriod.lightGoes .periodCount 0
  | .windowWait => s
  | .windowCount => s.lightGoes .windowCount (saturate 65535 (s.light.count + 1))

/-- R119. -/
def execLsRisingEdge (us : Nat) (s : State) : Host.Outcome State Fault Refusal := .next (s.lsRisingEdge us)

/-- A PERIOD measurement is in flight. -/
def LightUnit.inPeriod (u : LightUnit) : Bool := u.state == .edgeWait || u.state == .periodCount

/-- R120: the rest of the 65535 microseconds pass. -/
def State.periodOverflow (s : State) : State := if s.light.inPeriod then s.overflowPeriod else s

/-- R120. -/
def execPeriodOverflow (s : State) : Host.Outcome State Fault Refusal := .next s.periodOverflow

/-- R121, R122: the sweep start in progress is the one that closes the window. -/
def State.windowCloses (s : State) : Bool :=
  s.light.state == .windowCount && s.light.windowSweeps + 1 == (s.setting .lightWindow).toNat

/-- R121: a window opens. -/
def State.openWindow (s : State) : State :=
  s.withLight { s.light with state := .windowCount, count := 0, windowSweeps := 0 }

/-- R122, R124: the window's result is stored and the next window opens; the event is `levelEvent` of the count. -/
def State.closeWindow (s : State) : State :=
  (s.storeResult s.light.count (s.light.count == 65535)).openWindow

/-- R122, R128. -/
def State.windowComplete (s : State) : State :=
  if s.windowCloses then s.closeWindow.submitSome (s.levelEvent s.light.count) else s

/-- R122. -/
def execWindowComplete (s : State) : Host.Outcome State Fault Refusal := .next s.windowComplete

/-- R121: the Light Sense Unit at a sweep start. -/
def State.lightSweep (s : State) : State :=
  match s.light.state with
  | .stopped => s
  | .edgeWait => s
  | .periodCount => s
  | .windowWait => s.openWindow
  | .windowCount =>
    if s.windowCloses then s.closeWindow
    else s.withLight { s.light with windowSweeps := s.light.windowSweeps + 1 }

/-- R128: the event the Light Sense Unit makes at a sweep start, if any. -/
def State.lightSweepEvent (s : State) : Option (EventKind × Byte) :=
  if s.windowCloses then s.levelEvent s.light.count else none

/-- A microsecond of a PERIOD measurement; the measurement overflows when the count reaches 65535 (R119, R120). -/
def State.lightMicrosecond (s : State) : State :=
  if s.light.inPeriod then
    if 65535 ≤ s.light.count + 1 then s.overflowPeriod
    else s.withLight { s.light with count := s.light.count + 1 }
  else s

/-- The step on an empty queue: one microsecond of REFCLK (assumption 2). -/
def State.microsecond (s : State) : State :=
  s.lightMicrosecond.withTone (s.lightMicrosecond.tone.map Play.microsecond)

end Sys2Proof.Machine
end

