-- ==== Sys2Proof/Machine/Tables.lean ====
section
/-! DEFINITION. The Table Store: its copies by table, validation, the requests and the activation (chapter 3). -/

namespace Sys2Proof.Machine

/-! ## Copies -/

/-- R51: bytes written over the staging copy. -/
def TableRec.load {n : Nat} (r : TableRec n) (at_ : Nat) (bytes : List Byte) : TableRec n :=
  { r with staging := overwriteVector r.staging at_ bytes }

/-- R54: staging takes the active content. -/
def TableRec.abandon {n : Nat} (r : TableRec n) : TableRec n := { r with staging := r.active }

/-- R62: active takes the staging content, and the generation advances. -/
def TableRec.activate {n : Nat} (r : TableRec n) : TableRec n :=
  { r with active := r.staging, generation := r.generation + 1 }

/-- One table's record through a function. -/
def TableStore.update (t : TableStore) (f : {n : Nat} → TableRec n → TableRec n) : Table → TableStore
  | .glyph => { t with glyph := f t.glyph }
  | .route => { t with route := f t.route }
  | .dim => { t with dim := f t.dim }
  | .keymap => { t with keymap := f t.keymap }
  | .scan => { t with scan := f t.scan }
  | .light => { t with light := f t.light }
  | .tone => { t with tone := f t.tone }

/-- The records of the tables in a set through a function. -/
def TableStore.updateSet (t : TableStore) (set : BitVec 7) (f : {n : Nat} → TableRec n → TableRec n) : TableStore where
  glyph := if inSet set .glyph then f t.glyph else t.glyph
  route := if inSet set .route then f t.route else t.route
  dim := if inSet set .dim then f t.dim else t.dim
  keymap := if inSet set .keymap then f t.keymap else t.keymap
  scan := if inSet set .scan then f t.scan else t.scan
  light := if inSet set .light then f t.light else t.light
  tone := if inSet set .tone then f t.tone else t.tone
  pendingSet := t.pendingSet

/-- The staging copy (`active` false) or the active copy of a table, as bytes. -/
def TableRec.copy {n : Nat} (r : TableRec n) (active : Bool) : Vector Byte n :=
  if active then r.active else r.staging

def TableStore.bytes (t : TableStore) (active : Bool) : Table → List Byte
  | .glyph => (t.glyph.copy active).toList
  | .route => (t.route.copy active).toList
  | .dim => (t.dim.copy active).toList
  | .keymap => (t.keymap.copy active).toList
  | .scan => (t.scan.copy active).toList
  | .light => (t.light.copy active).toList
  | .tone => (t.tone.copy active).toList

def TableStore.generation (t : TableStore) : Table → Byte
  | .glyph => t.glyph.generation
  | .route => t.route.generation
  | .dim => t.dim.generation
  | .keymap => t.keymap.generation
  | .scan => t.scan.generation
  | .light => t.light.generation
  | .tone => t.tone.generation

/-! ## Validation (R56 to R61): whether entry `i` is one that validation charges -/

/-- R57. -/
def dimFails (v : Vector Byte 16) (i : Nat) : Bool :=
  56 < (byteAt v i).toNat || (1 ≤ i && (byteAt v i).toNat < (byteAt v (i - 1)).toNat)

/-- R57. -/
def keymapFails (v : Vector Byte 256) (i : Nat) : Bool := 127 < (keymapCode v i).toNat

/-- R58: segment line `i / 8 + 1`, phase `i % 8 + 1`. -/
def routeFails (v : Vector Byte 768) (i : Nat) : Bool :=
  (routeEntry v i).kind == 3 ||
    (routeEntry v i).static &&
      (i % 8 != 0 || i / 8 + 1 < 17 || (List.range 7).any fun j => (routeEntry v (i + 1 + j)).kind != 0)

/-- R59. -/
def scanFails (v : Vector Byte 34) (i : Nat) : Bool :=
  if i = 0 then scanStepCount v < 1 || 16 < scanStepCount v
  else
    i ≤ scanStepCount v &&
      (scanColumns v i == 0 || (List.range (i - 1)).any fun j => scanColumns v (j + 1) &&& scanColumns v i != 0)

/-- R60: entry `j + 1` holds threshold j. -/
def lightFails (v : Vector Byte 34) (i : Nat) : Bool :=
  if i = 0 then 15 < lightThresholds v
  else 3 ≤ i && i ≤ lightThresholds v + 1 && lightThreshold v (i - 1) ≤ lightThreshold v (i - 2)

/-- R61. -/
def patternFails (p : Vector Byte 20) : Bool :=
  patternHalfPeriod p < 25 || 2000 < patternHalfPeriod p || patternSegments p < 1 || 8 < patternSegments p ||
    (List.range (patternSegments p)).any fun j => patternDuration p (j + 1) == 0

def toneFails (v : Vector Byte 160) (i : Nat) : Bool := patternFails (toneCopy v i)

/-- Entry `i` of a copy of a table fails its validation; GLYPH never fails. -/
def TableStore.entryFails (t : TableStore) (active : Bool) : Table → Nat → Bool
  | .glyph, _ => false
  | .route, i => routeFails (t.route.copy active) i
  | .dim, i => dimFails (t.dim.copy active) i
  | .keymap, i => keymapFails (t.keymap.copy active) i
  | .scan, i => scanFails (t.scan.copy active) i
  | .light, i => lightFails (t.light.copy active) i
  | .tone, i => toneFails (t.tone.copy active) i

/-- R56: the failing entry of a copy, the first in ascending index. -/
def TableStore.firstFailure (t : TableStore) (active : Bool) (table : Table) : Option Nat :=
  (List.range (tableEntries table)).find? (t.entryFails active table)

/-- R56: the first table of the list with a failing entry, and that entry. -/
def TableStore.failureIn (t : TableStore) : List Table → Option (Table × Nat)
  | [] => none
  | table :: rest =>
    match t.firstFailure false table with
    | some entry => some (table, entry)
    | none => t.failureIn rest

/-! ## The requests (R51 to R55) -/

/-- The tables of a set in id order. -/
def tablesOf (set : BitVec 7) : List Table := allTables.filter (inSet set)

/-- The lowest pending table among those a set names (R54, R55). -/
def TableStore.pendingIn (t : TableStore) (set : BitVec 7) : Option Table :=
  (tablesOf set).find? (inSet t.pendingSet)

/-- R51: the entries written to staging. -/
def State.loadEntries (s : State) (table : Table) (first : Nat) (bytes : List Byte) : State :=
  s.withTables (s.tables.update (fun r => r.load (first * tableEntryBytes table) bytes) table)

/-- R51 steps 2 to 4. -/
def State.loadTable (s : State) (table : Table) (first : Nat) (bytes : List Byte) : Served :=
  if inSet s.tables.pendingSet table then refusedWith s .busy []
  else if bytes.length % tableEntryBytes table = 0 ∧ 1 ≤ bytes.length / tableEntryBytes table ∧
      first + bytes.length / tableEntryBytes table ≤ tableEntries table then
    served (s.loadEntries table first bytes) []
  else refusedWith s .badRange []

/-- R51. -/
def State.serveTableLoad (table : Byte) (first : Half) (bytes : List Byte) (s : State) : Served :=
  match tableOfByte table with
  | none => refusedWith s .badRange []
  | some t => s.loadTable t first.toNat bytes

/-- R51. -/
def execTableLoad (table : Byte) (first : Half) (entries : List Byte) (s : State) :
    Host.Outcome State Fault Refusal :=
  .next (s.takeItem (.tableLoad table first entries) (State.serveTableLoad table first entries))

/-- R53: the generation and the entries of a copy. -/
def TableStore.reading (t : TableStore) (table : Table) (active : Bool) (first count : Nat) : List Byte :=
  t.generation table ::
    ((t.bytes active table).drop (first * tableEntryBytes table)).take (count * tableEntryBytes table)

/-- R53. -/
def State.serveTableRead (table copy : Byte) (first : Half) (count : Byte) (s : State) : Served :=
  match tableOfByte table with
  | none => refusedWith s .badRange []
  | some t =>
    if copy.toNat ≤ 1 ∧ 1 ≤ count.toNat ∧ first.toNat + count.toNat ≤ tableEntries t ∧
        count.toNat * tableEntryBytes t ≤ 240 then
      served s (s.tables.reading t (copy == 1) first.toNat count.toNat)
    else refusedWith s .badRange []

/-- R53. -/
def execTableRead (table copy : Byte) (first : Half) (count : Byte) (s : State) :
    Host.Outcome State Fault Refusal :=
  .next (s.takeItem (.tableRead table copy first count) (State.serveTableRead table copy first count))

/-- R49, R55: the tables of a set join the activation-pending set. -/
def State.makePending (s : State) (set : BitVec 7) : State :=
  s.withTables { s.tables with pendingSet := s.tables.pendingSet ||| set }

/-- R55. -/
def State.serveTableActivate (set : BitVec 7) (s : State) : Served :=
  if set = 0 then refusedWith s .badRange []
  else
    match s.tables.pendingIn set with
    | some table => refusedWith s .busy [natByte (tableId table)]
    | none =>
      match s.tables.failureIn (tablesOf set) with
      | some failure => refusedWith s .badTable (natByte (tableId failure.1) :: natBytes failure.2)
      | none => served (s.makePending set) []

/-- R55. -/
def execTableActivate (set : BitVec 7) (s : State) : Host.Outcome State Fault Refusal :=
  .next (s.takeItem (.tableActivate set) (State.serveTableActivate set))

/-- R54: the staging copies of a set take their active content. -/
def State.abandonTables (s : State) (set : BitVec 7) : State :=
  s.withTables (s.tables.updateSet set TableRec.abandon)

/-- R54. -/
def State.serveTableAbandon (set : BitVec 7) (s : State) : Served :=
  if set = 0 then refusedWith s .badRange []
  else
    match s.tables.pendingIn set with
    | some table => refusedWith s .busy [natByte (tableId table)]
    | none => served (s.abandonTables set) []

/-- R54. -/
def execTableAbandon (set : BitVec 7) (s : State) : Host.Outcome State Fault Refusal :=
  .next (s.takeItem (.tableAbandon set) (State.serveTableAbandon set))

/-! ## Activation at a sweep start (R62, R63) -/

/-- R62: every pending table activated, and the set emptied. -/
def TableStore.activatePending (t : TableStore) : TableStore :=
  { t.updateSet t.pendingSet TableRec.activate with pendingSet := 0 }

def State.activateTables (s : State) : State := s.withTables s.tables.activatePending

/-- R63: the event of an activation, with the set in its argument (section 12.2). -/
def State.activationEvent (s : State) : Option (EventKind × Byte) :=
  if s.tables.pendingSet ≠ 0 ∧ s.masked 2 then some (.tablesActive, s.tables.pendingSet.setWidth 8) else none

end Sys2Proof.Machine
end

