-- ==== Sys2Proof/Machine/Drive.lean ====
section
/-! DEFINITION. The Multiplex Driver: the sweep start with every block's part in it, phases and windows, and the segment
and common lines (chapter 2; R18 to R20 and R62 at the sweep start). -/

namespace Sys2Proof.Machine

/-! ## The transfer (R18 to R20) -/

/-- R18: the pending picture becomes the shown one. -/
def CellStore.transfer (c : CellStore) : CellStore :=
  { c with shown := c.pendingPlane, shownTag := c.pendingTag, pendingValid := false }

/-- R18, R20: the transfer clears fallback-hold. -/
def State.transfer (s : State) : State :=
  if s.cells.pendingValid then (s.withCells s.cells.transfer).setFallbackHold false else s

/-- R19. -/
def State.shownEvent (s : State) : Option (EventKind × Byte) :=
  if s.cells.pendingValid ∧ s.masked 1 then some (.commitShown, s.cells.pendingTag) else none

/-! ## The blocks' turns at a sweep start (R71, R103) -/

/-- A block's part in a sweep start that submits an event, and the sample of the sense window that ends there. -/
inductive Turn
  | light
  | cells
  | tables
  | sample (returns : Byte)
  deriving DecidableEq, Repr

/-- The three blocks in the order the sender chose (assumption 8). -/
def blocksInOrder : SubmitOrder → List Turn
  | .lightCellsTables => [.light, .cells, .tables]
  | .lightTablesCells => [.light, .tables, .cells]
  | .cellsLightTables => [.cells, .light, .tables]
  | .cellsTablesLight => [.cells, .tables, .light]
  | .tablesLightCells => [.tables, .light, .cells]
  | .tablesCellsLight => [.tables, .cells, .light]

/-- The turns of a sweep start: the blocks, with a late sample at its place among them. -/
def sweepTurns (order : SubmitOrder) : Option LateSample → List Turn
  | none => blocksInOrder order
  | some late =>
    let place := late.after.val + 1
    (blocksInOrder order).take place ++ .sample late.returns :: (blocksInOrder order).drop place

/-- R121, R128: the Light Sense Unit's turn; a window result is formed with the LIGHT table of the sweep that ends
(R124), whether or not the Table Store has had its turn. -/
def State.lightTurn (s ending : State) : State :=
  let old := s.withTables ending.tables
  (old.lightSweep.submitSome old.lightSweepEvent).withTables s.tables

/-- One turn at the sweep start that ends the sweep of `ending`. A late sample is read with the columns driven in that
sweep (R71). -/
def State.takeTurn (ending s : State) : Turn → State
  | .light => s.lightTurn ending
  | .cells => s.transfer.submitSome s.shownEvent
  | .tables => s.activateTables.submitSome s.activationEvent
  | .sample returns => s.takeSample ending.scanDrive returns

/-! ## What the Multiplex Driver fixes for a sweep (R26, R33, R37 to R39) -/

/-- R33: a generator at a sweep start, with its ON and OFF lengths. -/
def Blink.sweep (g : Blink) (counter on off : Byte) : Blink :=
  if g.restart then ⟨true, counter, false⟩
  else if counter - g.start = (if g.on then on else off) then ⟨!g.on, counter, false⟩
  else g

/-- R37. -/
def State.levelDue (s : State) : Nat :=
  if s.setting .brightSource = 0 then (s.setting .brightLevel).toNat else s.brightnessOutput

/-- R39: the first row whose condition holds. -/
def State.driveModeDue (s : State) : DriveMode :=
  if s.node.state = .unaddressed then .off
  else if s.node.state = .quiescent then .quiet
  else if s.setting .display = 1 then .blank
  else if s.node.state = .standalone ∨ s.node.fallbackHold then
    (if s.setting .fallback = 0 then .fallbackDark
      else if s.setting .fallback = 2 then .fallbackFlash
      else .normal)
  else .normal

/-- The generators and the level of the sweep that begins. -/
def State.sweepDrive (s : State) : Drive :=
  { s.drive with
    blinkA := s.drive.blinkA.sweep s.drive.sweepCounter (s.setting .blinkAOn) (s.setting .blinkAOff)
    blinkB := s.drive.blinkB.sweep s.drive.sweepCounter (s.setting .blinkBOn) (s.setting .blinkBOff)
    level := s.levelDue }

/-- R26: the inputs of the sweep that begins. -/
def State.sweepInputs (s : State) : SweepInputs where
  shown := s.cells.shown
  glyph := s.tables.glyph.active
  route := s.tables.route.active
  dim := s.tables.dim.active
  phases := s.setting .phases
  phaseTime := s.setting .phaseTime
  display := s.setting .display
  brightSource := s.setting .brightSource
  brightLevel := s.setting .brightLevel
  fallback := s.setting .fallback
  halfA := s.sweepDrive.blinkA.on
  halfB := s.sweepDrive.blinkB.on
  level := s.levelDue
  onTime := (byteAt s.tables.dim.active s.levelDue).toNat
  mode := s.driveModeDue

/-- R24: a phase begins with its lit window, or with its dark window when k is 0. -/
def firstWindow (onTime : Nat) : Window := if onTime = 0 then .dark else .lit

/-- R26: the sweep begins with its inputs fixed. -/
def State.beginSweep (s : State) : State :=
  s.withDrive { s.sweepDrive with sweep := s.sweepInputs, window := firstWindow s.sweepInputs.onTime }

/-- R25: the sweep counter advances and phase 1 begins. -/
def State.countSweep (s : State) : State :=
  s.withDrive { s.drive with sweepCounter := s.drive.sweepCounter + 1, phase := 1 }

/-- R25, R26, R71: the changes timed from a sweep start: each block's turn, and after them the Key Scanner's own
changes. -/
def State.sweepChanges (s : State) (turns : List Turn) : State :=
  (turns.foldl s.takeTurn s.countSweep).scanSweep (inSet s.tables.pendingSet .scan)

/-- R25, R26: a sweep start. -/
def State.sweepStart (s : State) (order : SubmitOrder) (late : Option LateSample) : State :=
  (s.sweepChanges (sweepTurns order late)).beginSweep

/-- The sample is still to be taken only in the sense window that ends at this sweep start (R71). -/
def State.lateSample (s : State) (late : Option LateSample) : Option LateSample := if s.senses then late else none

/-- R25: the phase in progress is the sweep's last. -/
def State.inLastPhase (s : State) : Bool := s.drive.sweep.phases.toNat ≤ s.drive.phase

/-- R25, R71: the sense window of the sweep's last phase is at its end, its sample taken or late. No sweep runs in a hard
reset (R45). -/
def State.sweepOver (s : State) (late : Option LateSample) : Bool :=
  !s.inReset && s.inLastPhase && (s.drive.window == .ended || s.drive.window == .sense && late.isSome)

/-- R25: a sweep start follows on the end of a sweep, and comes at no other time. -/
def execSweepStart (order : SweepOrder) (s : State) : Host.Outcome State Fault Refusal :=
  .next (if s.sweepOver order.late then s.sweepStart order.blocks (s.lateSample order.late) else s)

/-! ## Blink halves (R33) -/

/-- R33 step 2: the generator's half reaches its length at the sweep with this counter. -/
def Blink.changes (g : Blink) (counter on off : Byte) : Bool :=
  !g.restart && counter - g.start == (if g.on then on else off)

def Blink.change (g : Blink) (counter : Byte) : Blink := ⟨!g.on, counter, false⟩

/-- R33: the change alone, at the sweep start that is to come (assumption 4). -/
def State.blinkHalfChange (s : State) : BlinkGen → State
  | .a =>
    if s.drive.blinkA.changes (s.drive.sweepCounter + 1) (s.setting .blinkAOn) (s.setting .blinkAOff) then
      s.withDrive { s.drive with blinkA := s.drive.blinkA.change (s.drive.sweepCounter + 1) }
    else s
  | .b =>
    if s.drive.blinkB.changes (s.drive.sweepCounter + 1) (s.setting .blinkBOn) (s.setting .blinkBOff) then
      s.withDrive { s.drive with blinkB := s.drive.blinkB.change (s.drive.sweepCounter + 1) }
    else s

/-- R33. -/
def execBlinkHalfChange (gen : BlinkGen) (s : State) : Host.Outcome State Fault Refusal := .next (s.blinkHalfChange gen)

/-! ## Phases and windows (R24, R27, R28) -/

/-- R24, R25: the next phase of the sweep, up to PHASES, begins when the sense window of the one before has ended. -/
def State.phaseStart (s : State) : State :=
  if s.drive.window = .ended ∧ s.drive.phase < s.drive.sweep.phases.toNat then
    s.withDrive { s.drive with phase := s.drive.phase + 1, window := firstWindow s.drive.sweep.onTime }
  else s

/-- R24; no sweep runs in a hard reset (R45). -/
def execPhaseStart (s : State) : Host.Outcome State Fault Refusal := .next (if s.inReset then s else s.phaseStart)

/-- R24: after the lit window comes the dark window, or at once the sense window when k is 56 and no part is left for a
dark window. -/
def afterLit (onTime : Nat) : Window := if 56 ≤ onTime then .sense else .dark

/-- R27: the lit window ends. -/
def State.litWindowEnd (s : State) : State :=
  if s.drive.window = .lit then s.withDrive { s.drive with window := afterLit s.drive.sweep.onTime } else s

/-- R27. -/
def execLitWindowEnd (s : State) : Host.Outcome State Fault Refusal :=
  .next (if s.inReset then s else s.litWindowEnd)

/-- R24: the sense window is next: after the dark window, or after the lit one when k is 56. -/
def State.senseDue (s : State) : Bool :=
  s.drive.window == .dark || s.drive.window == .lit && afterLit s.drive.sweep.onTime == .sense

/-- R28: the sense window begins, once in a phase. -/
def State.senseWindowStart (s : State) : State :=
  if s.senseDue then s.withDrive { s.drive with window := .sense } else s

/-- R28. -/
def execSenseWindowStart (s : State) : Host.Outcome State Fault Refusal :=
  .next (if s.inReset then s else s.senseWindowStart)

/-! ## Durations (R24, R25) -/

/-- The length of a phase and of a sweep in microseconds. -/
def SweepInputs.phaseMicroseconds (w : SweepInputs) : Nat := w.phaseTime.toNat * 8
def SweepInputs.sweepMicroseconds (w : SweepInputs) : Nat := w.phases.toNat * w.phaseMicroseconds

/-! ## Dots (R30, R31, R42) -/

/-- R30. An inverted entry is lit over a cell of the reset record too, where R1 and R22 speak of no lit dot: the model
follows R30 (assumption 30). -/
def SweepInputs.routeValue (w : SweepInputs) (e : RouteEntry) : Bool :=
  if e.kind = 1 then (patternOf w.shown w.glyph e.cell).getLsbD e.line.toNat != e.invert else e.kind == 2

/-- R31: the blink gate lets a dot of this class through. -/
def SweepInputs.blinkOn (w : SweepInputs) : BlinkClass → Bool
  | .none => true
  | .a => w.halfA
  | .b => w.halfB

/-- R30, R31: the route value after the blink gate. -/
def SweepInputs.gatedValue (w : SweepInputs) (e : RouteEntry) : Bool :=
  w.routeValue e && (if e.kind = 1 then w.blinkOn w.shown[e.cell].blink else true)

/-- R39: the drive mode lets commons and multiplexed lines run. -/
def DriveMode.matrixRuns : DriveMode → Bool
  | .off => false
  | .quiet => false
  | .blank => false
  | .fallbackDark => false
  | .fallbackFlash => true
  | .normal => true

/-- R42: the FLASH gate. -/
def SweepInputs.flashOn (w : SweepInputs) : Bool := w.mode != .fallbackFlash || w.halfB

/-- R32: the dot of segment line `line` in phase `phase` is lit. -/
def SweepInputs.dotLit (w : SweepInputs) (line phase : Nat) : Bool :=
  w.mode.matrixRuns && w.gatedValue (routeEntry w.route (routeIndex line phase)) && w.flashOn

/-- R35. -/
def SweepInputs.isStatic (w : SweepInputs) (line : Nat) : Bool := (routeEntry w.route (routeIndex line 1)).static

/-- R36: a static line is sunk. -/
def SweepInputs.staticLit (w : SweepInputs) (line : Nat) : Bool :=
  w.mode != .off && w.gatedValue (routeEntry w.route (routeIndex line 1))

/-! ## Pins (R27, R28, R32, R36, R45) -/

/-- R27: common line `p` is active. -/
def State.commonActive (s : State) (p : Nat) : Bool :=
  !s.inReset && s.drive.window == .lit && s.drive.phase == p && p ≤ s.drive.sweep.phases.toNat &&
    s.drive.sweep.onTime != 0 && s.drive.sweep.mode.matrixRuns

/-- R28, R32: multiplexed segment line `line` is sunk in the window in progress, or driven as a column. -/
def State.multiplexedActive (s : State) (line : Nat) : Bool :=
  match s.drive.window with
  | .lit => s.drive.sweep.dotLit line s.drive.phase
  | .dark => false
  | .sense => line ≤ 16 && s.scanDrive.getLsbD (line - 1)
  | .ended => false

/-- R32, R35, R36, R45: segment line `line` is active. -/
def State.segmentActive (s : State) (line : Nat) : Bool :=
  !s.inReset &&
    if s.drive.sweep.isStatic line then s.drive.sweep.staticLit line else s.multiplexedActive line

/-- A word with bit n set where `f (n + 1)` holds, for lines 1..w. -/
def lineWord (w : Nat) (f : Nat → Bool) : BitVec w :=
  (List.range w).foldr (fun n acc => if f (n + 1) then (1#w <<< n) ||| acc else acc) 0

/-- C1..C8, C1 in bit 0. -/
def State.commonLines (s : State) : BitVec 8 := lineWord 8 s.commonActive

/-- S1..S48, S1 in bit 0. -/
def State.segmentLines (s : State) : BitVec 48 := lineWord 48 s.segmentActive

end Sys2Proof.Machine
end

