-- ==== Sys2Proof/Machine/Node.lean ====
section
/-! DEFINITION. Node Control's events: hard reset, supply, the millisecond, link loss (chapter 8, R179, R181). -/

namespace Sys2Proof.Machine

/-! ## Hard reset and supply (R147, R179, R181) -/

/-- Every block in its hard-reset state, with this relay and these pins. The waiting commands stay. -/
def State.heldInReset (s : State) (rstLow supplyOk : Bool) (relay : Relay) : State :=
  { State.reset with rstLow := rstLow, supplyOk := supplyOk, relay := relay, pending := s.pending }

/-- The IDLE symbols that follow the last delimiter on the transmit pair: none while a frame is being repeated
(assumption 7). -/
def Relay.idlesSent (r : Relay) : Nat :=
  match r.mode, r.transmit with
  | .bypassTail _, _ => 0
  | _, .idle sent => sent
  | _, .sending _ => 0

/-- R179: the relay at the assertion of RST_N; a slot being sent is ended with AB (assumption 19). The IDLE symbols
already sent count towards the two that come before repetition. -/
def Relay.assertReset (r : Relay) : Relay :=
  match r.transmit with
  | .idle _ => { Relay.reset with transmit := .idle r.idlesSent }
  | .sending _ => { Relay.reset with tx := some .ab }

/-- R147, R179: RST_N is asserted. In a hard reset already, only the pin is taken (assumption 27). -/
def State.hardReset (s : State) : State :=
  if s.inReset then s.withRstLow true else s.heldInReset true true s.relay.assertReset

/-- R147. -/
def execHardReset (s : State) : Host.Outcome State Fault Refusal := .next s.hardReset

/-- R181: the relay at the release. -/
def Relay.release (r : Relay) : Relay :=
  match r.mode with
  | .relay => r
  | .bypass .waiting => { r with mode := .relay }
  | .bypass .between => { r with mode := .relay }
  | .bypass (.inFrame bytes) => { r with mode := .bypassTail bytes }
  | .bypassTail _ => r

/-- R45, R164, R181: the hard reset ends, which is the first sweep start. No event is made at it, so the order of
submissions does not matter. -/
def State.leaveReset (s : State) : State :=
  (((s.withRstLow false).withSupplyOk true).withRelay s.relay.release).sweepStart .lightCellsTables none

/-- R45, R147: RST_N is released; the hard reset goes on while the supply is below its range (assumption 27). -/
def State.resetRelease (s : State) : State :=
  if s.rstLow then (if s.supplyOk then s.leaveReset else s.withRstLow false) else s

/-- R45. -/
def execResetRelease (s : State) : Host.Outcome State Fault Refusal := .next s.resetRelease

/-- R147: the supply falls below its range: hard reset, and the transmit pair is not driven (assumption 18). -/
def State.supplyLoss (s : State) : State :=
  if s.supplyOk then s.heldInReset s.rstLow false { Relay.reset with tx := none } else s

/-- R147. -/
def execSupplyLoss (s : State) : Host.Outcome State Fault Refusal := .next s.supplyLoss

/-- R147, R179: the supply reaches its range: BYPASS with nothing to abort while RST_N is low, else the hard reset
ends. -/
def State.supplyInRange (s : State) : State :=
  if s.supplyOk then s
  else if s.rstLow then s.heldInReset true true Relay.reset
  else (s.withRelay Relay.reset).leaveReset

/-- R179. -/
def execSupplyInRange (s : State) : Host.Outcome State Fault Refusal := .next s.supplyInRange

/-! ## The millisecond (R79, R134, R158, R164) -/

/-- R158: the silence time after a millisecond. -/
def State.silenceNext (s : State) : Nat :=
  match s.linkTimer with
  | .stopped => s.node.silence
  | .running => saturate Config.silenceLimit (s.node.silence + 1)
  | .expired => saturate Config.silenceLimit (s.node.silence + 1)

/-- The time counter, the silence time, the press records and the segment time each advance. -/
def State.millisecond (s : State) : State :=
  ((s.withNode { s.node with time := s.node.time + 1, silence := s.silenceNext }).keysMillisecond).withTone
    (s.tone.map Play.millisecond)

/-- R164: the counter does not count in a hard reset. -/
def execMillisecondTick (s : State) : Host.Outcome State Fault Refusal :=
  .next (if s.inReset then s else s.millisecond)

/-! ## Link loss (R160) -/

/-- R160: the silence time has reached LOSS_TIMEOUT × 10 ms in RUNNING, between the processings of COMMAND frames
(assumption 10). -/
def State.linkLost (s : State) : Bool :=
  s.linkTimer == .running && (s.setting .lossTimeout).toNat * 10 ≤ s.node.silence && !s.engineBusy

/-- R160 step 3. -/
def State.lossAlert (s : State) : State :=
  if s.setting .lossTone = 255 then s else s.claimAlert (s.setting .lossTone)

/-- R160. -/
def State.loseLink (s : State) : State := ((s.setNodeState .standalone).setFallbackHold true).lossAlert

/-- R160. -/
def execLinkLossExpiry (s : State) : Host.Outcome State Fault Refusal := .next (if s.linkLost then s.loseLink else s)

end Sys2Proof.Machine
end

