-- ==== Sys2Proof/Machine/Relay.lean ====
section
/-! DEFINITION. The Frame Relay: receiving, the end of a frame, the hand-over to ENUMERATE, GATHER and COMMAND owners,
transmission, and bypass (chapter 9, R106 to R109, R149 to R153, R183). -/

namespace Sys2Proof.Machine

/-! ## Opening a frame (R171) -/

/-- A slot that holds no frame (R170). -/
def Slot.isFree (slot : Slot) : Bool := slot.use == .free

/-- R171: the slot takes the frame that opens; until its end it holds no end mark of its own (assumption 26). -/
def State.fill (s : State) (id : SlotId) : State := (s.putSlot id ⟨.filling, [], [], .ed⟩).setReceive (.storing id)

/-- R171: the first FREE slot, slot 1 first, or UNSTORED. -/
def State.openFrame (s : State) : State :=
  if s.relay.slot1.isFree then s.fill .one
  else if s.relay.slot2.isFree then s.fill .two
  else s.setReceive (.unstored 0)

/-! ## ENUMERATE (R149 to R153) -/

/-- The fields of an ENUMERATE payload, at bytes 4 to 7 of the frame (section 12.2). -/
def enumMode (bytes : List Byte) : Byte := bytes.getD 4 0
def enumNext (bytes : List Byte) : Byte := bytes.getD 5 0
def enumTaken (bytes : List Byte) : Byte := bytes.getD 6 0

/-- R149: the payload check. -/
def enumAccepted (bytes : List Byte) : Bool :=
  4 ≤ (framePayload bytes).length && (enumMode bytes == 1 || enumMode bytes == 2) &&
    1 ≤ (enumNext bytes).toNat && (enumNext bytes).toNat ≤ 63 && (enumTaken bytes).toNat ≤ 62

/-- R150, R152: the node takes the address, and the frame's fields advance. -/
def State.enumTake (s : State) (id : SlotId) (bytes : List Byte) : State :=
  (s.takeAddress (enumNext bytes)).editFrame id 5
    [enumNext bytes + 1, natByte (saturate 62 ((enumTaken bytes).toNat + 1))]

/-- R151: FULL is set, and a node with an address loses it in FRESH mode (R153). -/
def State.enumExhausted (s : State) (id : SlotId) (bytes : List Byte) : State :=
  (if enumMode bytes = 1 ∧ s.node.state ≠ .unaddressed then s.becomeUnaddressed else s).editFrame id 7 [1]

/-- R150: the node would take an address from this frame. -/
def State.wantsAddress (s : State) (bytes : List Byte) : Bool :=
  enumMode bytes == 1 || s.node.state == .unaddressed

/-- R149 to R151. -/
def State.enumerate (s : State) (id : SlotId) (bytes : List Byte) : State :=
  if enumAccepted bytes ∧ s.wantsAddress bytes then
    (if (enumNext bytes).toNat ≤ 62 then s.enumTake id bytes else s.enumExhausted id bytes)
  else s

/-! ## GATHER (R106 to R109) -/

/-- R106: the slot count, and the payload check. -/
def gatherCount (bytes : List Byte) : Nat := (bytes.getD 4 0).toNat

def gatherAccepted (bytes : List Byte) : Bool :=
  1 ≤ (framePayload bytes).length && 1 ≤ gatherCount bytes && gatherCount bytes ≤ 41 &&
    1 + 6 * gatherCount bytes ≤ (framePayload bytes).length

/-- R107, R108: the frame's bytes and the queue after a pass; slot 1 begins at byte 5 of the frame. -/
def State.gatherFill (s : State) (bytes : List Byte) : List Byte × EventQueue :=
  fillSlots (s.node.address.getD 0) (gatherCount bytes) 5 (s.setting .gatherQuota).toNat bytes
    (s.queue.ageAndGoBack (s.setting .resendAfter).toNat)

/-- R106. -/
def State.gatherPass (s : State) (id : SlotId) (bytes : List Byte) : State :=
  if gatherAccepted bytes then
    (s.withQueue (s.gatherFill bytes).2).putSlot id { s.slot id with bytes := (s.gatherFill bytes).1 }
  else s

/-! ## The hand-over (R175, R183, R200) -/

/-- The kind of a frame: bits 0..3 of header byte 0. -/
def frameKind (bytes : List Byte) : BitVec 4 := (bytes.getD 0 0).extractLsb' 0 4

/-- The destination. -/
def frameDest (bytes : List Byte) : Byte := bytes.getD 1 0

/-- R175: a COMMAND for this node. -/
def State.ownsCommand (s : State) (bytes : List Byte) : Bool :=
  s.gathers && (s.node.address == some (frameDest bytes) || frameDest bytes == Config.broadcastAddress)

/-- R175: the frame to its owner, decided after the good-frame report; it is then readied, or for a COMMAND once its
processing ends. -/
def State.handOver (s : State) (id : SlotId) (bytes : List Byte) : State :=
  if frameKind bytes = 1 then (s.enumerate id bytes).readyGood id
  else if frameKind bytes = 4 ∧ s.gathers then (s.gatherPass id bytes).readyGood id
  else if frameKind bytes = 2 ∧ s.ownsCommand bytes then
    s.beginProcessing id (frameDest bytes == Config.broadcastAddress) (s.node.address.getD 0) (framePayload bytes)
  else s.readyGood id

/-! ## The end of a frame (R168, R172 to R174) -/

/-- R172: a closed, good frame. -/
def State.endGood (s : State) (id : SlotId) : State :=
  ((s.setReceive .between).reportGoodFrame).handOver id (s.slot id).bytes

/-- R172: a frame of which the node must say AB. -/
def State.endAborted (s : State) (id : SlotId) : State := s.markReady id .ab

/-- R172: a bad, cut or oversize frame. -/
def State.endBad (s : State) (id : SlotId) : State := (s.endAborted id).countError

/-- While the Request Engine holds a frame, the end of an ENUMERATE and of a COMMAND for this node waits
(assumption 10). -/
def State.mustWait (s : State) (bytes : List Byte) : Bool :=
  s.engineBusy && (frameKind bytes == 1 || frameKind bytes == 2 && s.reportGoodFrame.ownsCommand bytes)

/-- R172: the end of a frame in a slot. -/
def State.endStored (s : State) (id : SlotId) : FrameEnd → State
  | .closed =>
    if (s.slot id).good then (if s.mustWait (s.slot id).bytes then s else s.endGood id)
    else (s.endBad id).setReceive .between
  | .aborted => (s.endAborted id).setReceive .between
  | .cutByIdle => (s.endBad id).setReceive .between
  | .cutBySd => (s.endBad id).openFrame
  | .oversize => if (s.slot id).bytes.length < Config.slotBytes then s else (s.endBad id).setReceive .discarding

/-- R174: the end of an overrun frame. -/
def State.endUnstored (s : State) (bytes : Nat) : FrameEnd → State
  | .closed => s.countError.setReceive .between
  | .aborted => s.countError.setReceive .between
  | .cutByIdle => s.countError.setReceive .between
  | .cutBySd => s.countError.openFrame
  | .oversize => if bytes < Config.slotBytes then s else s.countError.setReceive .discarding

/-- R173: DISCARDING ends at the next frame boundary. -/
def State.endDiscarding (s : State) : FrameEnd → State
  | .closed => s.setReceive .between
  | .aborted => s.setReceive .between
  | .cutByIdle => s.setReceive .between
  | .cutBySd => s.openFrame
  | .oversize => s

/-- R172, by receive state; between frames there is no frame to end. -/
def State.frameEnd (s : State) (e : FrameEnd) : State :=
  match s.relay.rx with
  | .between => s
  | .storing id => s.endStored id e
  | .unstored bytes => s.endUnstored bytes e
  | .discarding => s.endDiscarding e

/-- The relay stores and forwards (R170). -/
def State.relays (s : State) : Bool := s.relay.mode == .relay

/-- R172. -/
def execFrameEnd (e : FrameEnd) (s : State) : Host.Outcome State Fault Refusal :=
  .next (if s.relays then s.frameEnd e else s)

/-! ## Symbols inside a frame (R171, R173) -/

/-- R171: an SD opens a frame, and cuts the one that is open. -/
def State.frameOpen (s : State) : State :=
  match s.relay.rx with
  | .between => s.openFrame
  | .storing id => s.endStored id .cutBySd
  | .unstored bytes => s.endUnstored bytes .cutBySd
  | .discarding => s.openFrame

/-- R171. -/
def execFrameOpen (s : State) : Host.Outcome State Fault Refusal := .next (if s.relays then s.frameOpen else s)

/-- R171: a byte with its invalid mark joins the slot. -/
def Slot.push (slot : Slot) (b : Byte) (invalid : Bool) : Slot :=
  { slot with bytes := slot.bytes ++ [b], invalid := slot.invalid ++ [invalid] }

/-- R171, R173: a byte of a stored frame, the 255th of which ends it. -/
def State.storeByte (s : State) (id : SlotId) (b : Byte) (invalid : Bool) : State :=
  if (s.slot id).bytes.length < Config.slotBytes then s.putSlot id ((s.slot id).push b invalid)
  else s.endStored id .oversize

/-- R171, R174: a byte of an overrun frame is counted; the 255th ends it. -/
def State.countByte (s : State) (bytes : Nat) : State :=
  if bytes < Config.slotBytes then s.setReceive (.unstored (bytes + 1)) else s.endUnstored bytes .oversize

def State.takeByte (s : State) (b : Byte) (invalid : Bool) : State :=
  match s.relay.rx with
  | .between => s
  | .storing id => s.storeByte id b invalid
  | .unstored bytes => s.countByte bytes
  | .discarding => s

/-- R171: a data or invalid symbol; a delimiter is not a byte. -/
def State.byteReceived (s : State) : Symbol → State
  | .data b => s.takeByte b false
  | .invalid => s.takeByte 0 true
  | .sd => s
  | .ed => s
  | .ab => s
  | .idle => s

/-- R171. -/
def execByteReceived (sym : Symbol) (s : State) : Host.Outcome State Fault Refusal :=
  .next (if s.relays then s.byteReceived sym else s)

/-! ## Transmission (R177) -/

/-- R177: the transmitter begins a slot with its SD. -/
def State.beginSending (s : State) (id : SlotId) (rest : List SlotId) : State :=
  let s := s.putSlot id { s.slot id with use := .sending }
  s.withRelay { s.relay with transmit := .sending id, readyOrder := rest, tx := some .sd }

/-- IDLE symbols sent since the last delimiter: 0, 1, or 2 and more (R170). -/
def State.countIdle (s : State) (sent : Nat) : State :=
  s.withRelay { s.relay with transmit := .idle (saturate 2 sent) }

/-- What the transmit pair carries. -/
def State.transmit (s : State) (sym : Symbol) : State := s.withRelay { s.relay with tx := some sym }

/-- R177: `idles` more IDLE symbols leave, and the earliest READY slot is begun when two have followed the last
delimiter (assumption 7). -/
def State.transmitStart (s : State) (idles : Nat) : State :=
  match s.relay.transmit with
  | .sending _ => s
  | .idle sent =>
    match s.relay.readyOrder with
    | [] => if idles = 0 then s else (s.countIdle (sent + idles)).transmit .idle
    | id :: rest =>
      if 2 ≤ sent + idles then s.beginSending id rest
      else if idles = 0 then s
      else (s.countIdle (sent + idles)).transmit .idle

/-- R177. -/
def execTransmitStart (idles : Nat) (s : State) : Host.Outcome State Fault Refusal :=
  .next (if s.relays then s.transmitStart idles else s)

/-- The symbol of an end mark. -/
def markSymbol : EndMark → Symbol
  | .ed => .ed
  | .ab => .ab

/-- R177: the end mark has left, and the slot is FREE. -/
def State.transmitEnd (s : State) : State :=
  match s.relay.transmit with
  | .idle _ => s
  | .sending id => (((s.putSlot id Slot.free).countIdle 0).transmit (markSymbol (s.slot id).mark))

/-- R177. -/
def execTransmitEnd (s : State) : Host.Outcome State Fault Refusal :=
  .next (if s.relays then s.transmitEnd else s)

/-! ## Bypass (R179 to R181) -/

def State.setMode (s : State) (mode : RelayMode) : State := s.withRelay { s.relay with mode := mode }

/-- R180: the IDLE count while repeating: a delimiter sets it to 0, an IDLE counts (assumption 7). -/
def State.countRepeated (s : State) : Symbol → State
  | .data _ => s
  | .sd => s.countIdle 0
  | .ed => s.countIdle 0
  | .ab => s.countIdle 0
  | .idle => s.countIdle (s.relay.idlesSent + 1)
  | .invalid => s

/-- Where the repeated frame stands after a symbol: the bytes since its SD, held at 254 (R180, R181). -/
def repetitionAfter (rep : Repetition) : Symbol → Repetition
  | .sd => .inFrame 0
  | .ed => .between
  | .ab => .between
  | .idle => .between
  | .data _ =>
    match rep with
    | .waiting => .waiting
    | .between => .between
    | .inFrame bytes => .inFrame (saturate Config.slotBytes (bytes + 1))
  | .invalid =>
    match rep with
    | .waiting => .waiting
    | .between => .between
    | .inFrame bytes => .inFrame (saturate Config.slotBytes (bytes + 1))

/-- R180: a symbol repeated as it arrived. -/
def State.repeatSymbol (s : State) (rep : Repetition) (sym : Symbol) : State :=
  ((s.setMode (.bypass (repetitionAfter rep sym))).transmit sym).countRepeated sym

/-- R179: before repetition begins, the transmitter sends IDLE; an SD after two IDLE symbols begins it. -/
def State.awaitRepetition (s : State) (sym : Symbol) : State :=
  if sym = .sd ∧ 2 ≤ s.relay.idlesSent then s.repeatSymbol .between sym
  else (s.countIdle (s.relay.idlesSent + 1)).transmit .idle

/-- R181: the relay enters RELAY, having sent this delimiter. -/
def State.enterRelay (s : State) (sent : Symbol) (rx : Receive) : State :=
  (((s.setMode .relay).transmit sent).countIdle 0).setReceive rx

/-- R181: the end of the frame repeated in BYPASS_TAIL. -/
def State.tailEnd (s : State) (bytes : Nat) : FrameEnd → State
  | .closed => s.enterRelay .ed .between
  | .aborted => s.enterRelay .ab .between
  | .cutByIdle => s.enterRelay .ab .between
  | .cutBySd => (s.enterRelay .ab .between).openFrame
  | .oversize => if bytes < Config.slotBytes then s else s.enterRelay .ab .discarding

/-- R181: a byte of the frame repeated in BYPASS_TAIL, the 255th of which ends it. -/
def State.tailByte (s : State) (bytes : Nat) (sym : Symbol) : State :=
  if bytes < Config.slotBytes then (s.setMode (.bypassTail (bytes + 1))).transmit sym
  else s.tailEnd bytes .oversize

/-- R181: a symbol received in BYPASS_TAIL. -/
def State.tailSymbol (s : State) (bytes : Nat) : Symbol → State
  | .data b => s.tailByte bytes (.data b)
  | .invalid => s.tailByte bytes .invalid
  | .sd => s.tailEnd bytes .cutBySd
  | .ed => s.tailEnd bytes .closed
  | .ab => s.tailEnd bytes .aborted
  | .idle => s.tailEnd bytes .cutByIdle

/-- R180, R181: a symbol received while the relay repeats; nothing is driven while the supply is out of range. -/
def State.bypassSymbol (s : State) (sym : Symbol) : State :=
  if s.supplyOk then
    match s.relay.mode with
    | .relay => s
    | .bypass .waiting => s.awaitRepetition sym
    | .bypass .between => s.repeatSymbol .between sym
    | .bypass (.inFrame bytes) => s.repeatSymbol (.inFrame bytes) sym
    | .bypassTail bytes => s.tailSymbol bytes sym
  else s

/-- R180. -/
def execBypassRepeat (sym : Symbol) (s : State) : Host.Outcome State Fault Refusal := .next (s.bypassSymbol sym)

/-- R181. -/
def State.bypassTailEnd (s : State) (e : FrameEnd) : State :=
  match s.relay.mode with
  | .relay => s
  | .bypass _ => s
  | .bypassTail bytes => s.tailEnd bytes e

/-- R181. -/
def execBypassTailEnd (e : FrameEnd) (s : State) : Host.Outcome State Fault Refusal := .next (s.bypassTailEnd e)

end Sys2Proof.Machine
end

