-- ==== Sys2Proof/Machine/Dispatch.lean ====
section
/-! DEFINITION. The meaning of each command: one arm for each row of spec/opcode_table.json. -/

namespace Sys2Proof.Machine

def exec (i : Instr) (s : State) : Host.Outcome State Fault Refusal :=
  match i with
  | .hardReset => Sys2Proof.Machine.execHardReset s
  | .resetRelease => Sys2Proof.Machine.execResetRelease s
  | .bypassTailEnd e => Sys2Proof.Machine.execBypassTailEnd e s
  | .frameEnd e => Sys2Proof.Machine.execFrameEnd e s
  | .goBack => Sys2Proof.Machine.execGoBack s
  | .transmitStart idles => Sys2Proof.Machine.execTransmitStart idles s
  | .transmitEnd => Sys2Proof.Machine.execTransmitEnd s
  | .malformedItem => Sys2Proof.Machine.execMalformedItem s
  | .unknownRequest code params => Sys2Proof.Machine.execUnknownRequest code params s
  | .readStatus clearErrors => Sys2Proof.Machine.execReadStatus clearErrors s
  | .settingRead first count => Sys2Proof.Machine.execSettingRead first count s
  | .settingWrite pairs => Sys2Proof.Machine.execSettingWrite pairs s
  | .setTime time => Sys2Proof.Machine.execSetTime time s
  | .quiesce => Sys2Proof.Machine.execQuiesce s
  | .resume => Sys2Proof.Machine.execResume s
  | .nodeReset scope => Sys2Proof.Machine.execNodeReset scope s
  | .resetEffect => Sys2Proof.Machine.execResetEffect s
  | .writeCells first records => Sys2Proof.Machine.execWriteCells first records s
  | .fillCells first count stride record => Sys2Proof.Machine.execFillCells first count stride record s
  | .readCells plane first count option => Sys2Proof.Machine.execReadCells plane first count option s
  | .commit tag => Sys2Proof.Machine.execCommit tag s
  | .tableLoad table first entries => Sys2Proof.Machine.execTableLoad table first entries s
  | .tableRead table copy first count => Sys2Proof.Machine.execTableRead table copy first count s
  | .tableActivate set => Sys2Proof.Machine.execTableActivate set s
  | .tableAbandon set => Sys2Proof.Machine.execTableAbandon set s
  | .ackEvents seq => Sys2Proof.Machine.execAckEvents seq s
  | .toneStart pattern => Sys2Proof.Machine.execToneStart pattern s
  | .toneStop => Sys2Proof.Machine.execToneStop s
  | .sweepStart order => Sys2Proof.Machine.execSweepStart order s
  | .blinkHalfChange gen => Sys2Proof.Machine.execBlinkHalfChange gen s
  | .phaseStart => Sys2Proof.Machine.execPhaseStart s
  | .litWindowEnd => Sys2Proof.Machine.execLitWindowEnd s
  | .senseWindowStart => Sys2Proof.Machine.execSenseWindowStart s
  | .keySample returns => Sys2Proof.Machine.execKeySample returns s
  | .becomingDown key => Sys2Proof.Machine.execBecomingDown key s
  | .becomingUp key => Sys2Proof.Machine.execBecomingUp key s
  | .keyRepeat key closed => Sys2Proof.Machine.execKeyRepeat key closed s
  | .wakeReport => Sys2Proof.Machine.execWakeReport s
  | .linkLossExpiry => Sys2Proof.Machine.execLinkLossExpiry s
  | .halfPeriodEnd => Sys2Proof.Machine.execHalfPeriodEnd s
  | .segmentEnd => Sys2Proof.Machine.execSegmentEnd s
  | .lsRisingEdge us => Sys2Proof.Machine.execLsRisingEdge us s
  | .periodOverflow => Sys2Proof.Machine.execPeriodOverflow s
  | .windowComplete => Sys2Proof.Machine.execWindowComplete s
  | .frameOpen => Sys2Proof.Machine.execFrameOpen s
  | .byteReceived sym => Sys2Proof.Machine.execByteReceived sym s
  | .bypassRepeat sym => Sys2Proof.Machine.execBypassRepeat sym s
  | .millisecondTick => Sys2Proof.Machine.execMillisecondTick s
  | .supplyLoss => Sys2Proof.Machine.execSupplyLoss s
  | .supplyInRange => Sys2Proof.Machine.execSupplyInRange s

end Sys2Proof.Machine
end

