-- ==== Sys2Proof/Machine/Step.lean ====
section
/-! DEFINITION. The step of the block: the command at the front of the queue, or a microsecond when none waits. -/

namespace Sys2Proof.Machine

/-- The command at the front is taken and executed on the state with the rest of the queue. With no command waiting, one
microsecond of REFCLK passes (assumption 2). -/
def step (s : State) : Host.Outcome State Fault Refusal :=
  match s.pending with
  | [] => .next s.microsecond
  | c :: rest => exec c (s.withPending rest)

/-- `s` with the command a word spells put at the front of its queue. No row of the table has bits, so no word spells
one. -/
def State.withFetchWord (s : State) (nbits w : Nat) : State :=
  match decodeTableWord nbits w with
  | none => s
  | some c => s.withPending (c :: s.pending)

end Sys2Proof.Machine
end

