-- ==== Sys2Proof/Safety.lean ====
section
/-! DEFINITION. What is true of every state the node can reach, block by block, in the spec's own words, and what a safe
step is. Each is kept by every step; the statements that say so are in Certificates/Slice0/Obligations.lean. -/

namespace Sys2Proof.Machine

/-- A step is safe when it gives a next state. Every step of this block is (INVENTORY.md, Faults). -/
def State.stepsSafely (s : State) : Prop := ∃ t, step s = .next t

/-! ## Node Control -/

/-- R146: "The node holds an address in 1..62 in the states ONLINE, STANDALONE and QUIESCENT, and no address in
UNADDRESSED." -/
def NodeControl.addressHeld (n : NodeControl) : Prop :=
  (n.state = .unaddressed ↔ n.address = none) ∧ ∀ a ∈ n.address, 1 ≤ a.toNat ∧ a.toNat ≤ 62

/-- R183: a frame is processed in ONLINE or QUIESCENT. -/
def State.engineServed (s : State) : Prop :=
  s.engine = .idle ∨ s.node.state = .online ∨ s.node.state = .quiescent

/-- The node state, the address and the Request Engine agree. -/
def State.nodeSound (s : State) : Prop := s.node.addressHeld ∧ s.engineServed

/-- R158: the silence time is 0..25500, and 0 in STOPPED. -/
def State.timerSound (s : State) : Prop :=
  s.node.silence ≤ Config.silenceLimit ∧ (s.linkTimer = .stopped → s.node.silence = 0)

/-! ## Event Queue -/

/-- R96: "each entry's seq is one more (mod 256) than the seq of the entry before it", and next-seq follows the last
one (R97). -/
def seqsFrom : List Entry → Byte → Prop
  | [], _ => True
  | [e], next => e.seq + 1 = next
  | e :: e' :: rest, next => e.seq + 1 = e'.seq ∧ seqsFrom (e' :: rest) next

/-- R98: every SENT entry lies before every UNSENT one. -/
def sentFirst : List Entry → Prop
  | [] => True
  | e :: rest => (e.isSent = false → ∀ e' ∈ rest, e'.isSent = false) ∧ sentFirst rest

/-- R99. -/
def EventQueue.bounded (q : EventQueue) : Prop :=
  q.entries.length ≤ Config.queuePlaces ∧ q.entries.countP Entry.ordinary ≤ Config.ordinaryPlaces

/-- R100: "Pending-loss is 0 whenever the queue holds fewer than 32 entries." -/
def EventQueue.lossHeld (q : EventQueue) : Prop :=
  q.pendingLoss ≤ 255 ∧ (q.entries.length < Config.queuePlaces → q.pendingLoss = 0)

/-- The queue's own order and bounds. -/
def EventQueue.ordered (q : EventQueue) : Prop :=
  q.bounded ∧ seqsFrom q.entries q.nextSeq ∧ sentFirst q.entries ∧ q.lossHeld

/-- R104: "the event queue is empty whenever the node is UNADDRESSED". -/
def State.queueEmptyUnaddressed (s : State) : Prop := s.node.state = .unaddressed → s.queue.entries = []

/-! ## Cell Store -/

/-- R1, R2: a record as it may stand at an address. -/
def CellRecord.soundAt (c : CellRecord) (a : Fin 128) : Prop :=
  (∀ lead ∈ c.lead, lead.val < a.val) ∧ (c.render ≠ .raw → c.code.toNat < 64)

def planeSound (p : Plane) : Prop := ∀ a : Fin 128, p[a].soundAt a

/-- R1, R2: "In every plane, every cell record's lead, when present, names a cell with a lower address." -/
def State.cellsSound (s : State) : Prop :=
  planeSound s.cells.draft ∧ planeSound s.cells.pendingPlane ∧ planeSound s.cells.shown

/-! ## Table Store and settings -/

/-- R56: a copy passes its validation. -/
def TableStore.passes (t : TableStore) (active : Bool) (table : Table) : Prop :=
  ∀ i < tableEntries table, t.entryFails active table i = false

/-- R50: "The active copy of every table holds only contents that satisfy that table's validation conditions", and what
keeps it: the staging copy of a pending table has passed validation. -/
def State.tablesSound (s : State) : Prop :=
  ∀ table, s.tables.passes true table ∧ (inSet s.tables.pendingSet table → s.tables.passes false table)

/-- R196: "Each value always lies in its setting's range". -/
def State.settingsSound (s : State) : Prop := ∀ n, settingInRange n (s.setting n)

/-! ## Multiplex Driver -/

/-- R24, R25: the phase is one of the sweep's 1..8, k is at most 56, and there is no lit window when k is 0 and no dark one
when k is 56. -/
def State.sweepSound (s : State) : Prop :=
  1 ≤ s.drive.phase ∧ s.drive.phase ≤ s.drive.sweep.phases.toNat ∧ s.drive.sweep.phases.toNat ≤ 8 ∧
    s.drive.sweep.onTime ≤ 56 ∧ (s.drive.window = .lit → s.drive.sweep.onTime ≠ 0) ∧
    (s.drive.window = .dark → s.drive.sweep.onTime ≠ 56)

/-! ## Key Scanner -/

/-- R79: "A key that is UP has no press record." -/
def KeyRecord.sound (r : KeyRecord) : Prop := r.debounce.down = r.press.isSome

/-- Section 4.3: in OFF and WAKE every key is UP with count 0 and no press record; the any-key record runs in WAKE. -/
def State.scannerSound (s : State) : Prop :=
  (s.scanner.mode ≠ .full → s.scanner.keys = keysUp) ∧ (∀ k : Fin 128, (s.key k).sound) ∧
    (s.scanner.anyKey.isSome ↔ s.scanner.mode = .wake)

/-- R72: the step position is 1..count. -/
def State.stepSound (s : State) : Prop :=
  1 ≤ s.scanner.step ∧ s.scanner.step ≤ scanStepCount s.tables.scan.active

/-! ## Tone Unit and Light Sense Unit -/

/-- R140: "An ALERT plays in STANDALONE alone". -/
def State.alertSound (s : State) : Prop := s.plays .alert → s.node.state = .standalone

/-- R145: the channel is IDLE in QUIESCENT and UNADDRESSED. -/
def State.toneSilent (s : State) : Prop :=
  s.node.state = .quiescent ∨ s.node.state = .unaddressed → s.tone = none

/-- R118: the unit is STOPPED exactly while it does not run. -/
def State.lightSound (s : State) : Prop := s.light.state = .stopped ↔ s.lightRuns = false

/-- R117: count, result and level in their ranges. -/
def LightUnit.bounded (u : LightUnit) : Prop := u.count ≤ 65535 ∧ u.result ≤ 65535 ∧ u.level ≤ 15

/-! ## Frame Relay -/

/-- R170: a slot holds up to 254 bytes, with a mark for each. -/
def Slot.bounded (slot : Slot) : Prop :=
  slot.bytes.length ≤ Config.slotBytes ∧ slot.invalid.length = slot.bytes.length

/-- R170, R178. -/
def State.relayBounded (s : State) : Prop :=
  s.relay.slot1.bounded ∧ s.relay.slot2.bounded ∧ s.relay.errors ≤ 65535

/-! ## Hard reset -/

/-- R147: while the hard reset lasts, every block is in its hard-reset state, and the relay is in BYPASS with both slots
FREE and the link error count 0 (R170, R178). -/
def State.resetHeld (s : State) : Prop :=
  s.inReset → s = s.heldInReset s.rstLow s.supplyOk s.relay ∧ (∃ rep, s.relay.mode = .bypass rep) ∧
    s.relay.slot1 = Slot.free ∧ s.relay.slot2 = Slot.free ∧ s.relay.rx = .between ∧ s.relay.errors = 0

/-! ## Words the statements use -/

/-- The Request Engine takes an addressed COMMAND, its next item is the request `c`, spelled by `code` and `params`, and
the room check passes (R186 steps 1 to 3). -/
def State.offers (s : State) (p : Processing) (c : Instr) (code : Byte) (params : List Byte) : Prop :=
  s.engine = .taking p ∧ p.broadcast = false ∧ p.item = .whole code params ∧ requestOf code params = some c ∧
    largestReply code params ≤ p.room

/-- `s` once an item has been answered with this status and data: the reply item stands at the reply position, and the
engine goes on or its processing ends (R186). -/
def State.answered (s : State) (p : Processing) (code : Byte) (params : List Byte) (status : Status)
    (data : List Byte) : State :=
  (s.writeReply p (replyItem code status data)).afterItem (p.past params (3 + data.length)) false none

/-- The Request Engine takes a broadcast COMMAND whose next item is the request `c`. -/
def State.offersBroadcast (s : State) (p : Processing) (c : Instr) (code : Byte) (params : List Byte) : Prop :=
  s.engine = .taking p ∧ p.broadcast = true ∧ p.item = .whole code params ∧ requestOf code params = some c

/-- `s` once an item of a broadcast has been taken: no reply (R193). -/
def State.passedOver (s : State) (p : Processing) (params : List Byte) : State :=
  s.afterItem (p.past params 0) false none

/-- The relay is in RELAY and receives a frame into slot `id`. -/
def State.storesIn (s : State) (id : SlotId) : Prop := s.relay.mode = .relay ∧ s.relay.rx = .storing id

/-- A good frame of this kind is in slot `id` and its ED arrives (R168, R172). -/
def State.closesGood (s : State) (id : SlotId) (kind : BitVec 4) : Prop :=
  s.storesIn id ∧ (s.slot id).good = true ∧ frameKind (s.slot id).bytes = kind

/-- The same while no COMMAND is in process. -/
def State.receivesGood (s : State) (id : SlotId) (kind : BitVec 4) : Prop := s.engine = .idle ∧ s.closesGood id kind

/-- R25: the sweep is at its end: the sense window of its last phase has ended, or ends with the late sample. -/
def State.sweepEnds (s : State) (late : Option LateSample) : Prop :=
  s.inReset = false ∧ s.drive.sweep.phases.toNat ≤ s.drive.phase ∧
    (s.drive.window = .ended ∨ (s.drive.window = .sense ∧ late ≠ none))

/-- The sense window has ended: its sample has been taken by KEY_SAMPLE, and is not late. -/
def State.sampleTaken (s : State) : Prop := s.drive.window = .ended

/-- `s` with slot `id` READY behind the slots already ready, this end mark, this receive state and error count. -/
def State.readied (s : State) (id : SlotId) (mark : EndMark) (rx : Receive) (errors : Nat) : State :=
  let r := s.putSlot id { s.slot id with use := .ready, mark := mark }
  r.withRelay { r.relay with readyOrder := r.relay.readyOrder ++ [id], rx := rx, errors := errors }

/-- One more, held at 65535 (R178). -/
def State.errorsNext (s : State) : Nat := min 65535 (s.relay.errors + 1)

/-- The bytes of a good frame as its owner left them, with the CRC over them in the last two (R169). -/
def withCrc (bytes : List Byte) : List Byte := frameBody bytes ++ crcBytes (frameBody bytes)

/-- `s` with slot `id` holding these bytes and READY with ED, and the receiver between frames. -/
def State.sentOn (s : State) (id : SlotId) (bytes : List Byte) : State :=
  (s.putSlot id { s.slot id with bytes := bytes }).readied id .ed .between s.relay.errors

end Sys2Proof.Machine
end

