-- ==== Sys2Proof/Certificates/Slice0/Obligations.lean ====
section
/-! DEFINITION. The statements for the provers. Each says what its name and its row in OBLIGATIONS.json say. -/

open Sys2Proof Sys2Proof.Machine

/-! ## The queue of commands -/

/-- Taking a command is executing it on the state with the rest of the queue. -/
def Obligations.StepTakesTheFrontCommand : Prop :=
  ∀ (c : Instr) (rest : List Instr) (s : State), step (s.withPending (c :: rest)) = exec c (s.withPending rest)

/-- With no command waiting one microsecond passes (the model's choice, assumption 2, DESIGN CHOICE): a PERIOD measurement
counts it, or overflows when its count reaches 65535; the carrier of an on segment counts it, and the outputs exchange when
the half-period length is reached; nothing else changes. -/
def Obligations.EmptyQueueStepPassesAMicrosecond : Prop :=
  ∀ s : State, s.pending = [] →
    ∃ t, step s = .next t ∧
      (s.light.inPeriod = false → t = s.withTone t.tone) ∧
      (s.light.inPeriod = true → s.light.count < 65534 →
        t = (s.withLight { s.light with count := s.light.count + 1 }).withTone t.tone) ∧
      (s.light.inPeriod = true → 65534 ≤ s.light.count →
        ∃ u, exec .periodOverflow s = .next u ∧ t = u.withTone t.tone) ∧
      t.tone = s.tone.map fun play =>
        if patternOn play.copy play.segment = true then
          (if patternHalfPeriod play.copy ≤ play.halfTime + 1 then { play with pHigh := !play.pHigh, halfTime := 0 }
            else { play with halfTime := play.halfTime + 1 })
        else play

/-- Executing a command leaves the waiting commands alone. -/
def Claim.CommandsKeepTheWaitingCommands : Prop :=
  ∀ (c : Instr) (s t : State), exec c s = .next t → t.pending = s.pending

/-- No command stops the part: every step gives a next state. -/
def Claim.EveryStepGivesANextState : Prop := ∀ s : State, s.stepsSafely

/-- Every step gives a next state, and executing a command leaves the waiting commands alone. -/
def Obligations.CommandsRunAndKeepTheQueue : Prop := Claim.EveryStepGivesANextState ∧ Claim.CommandsKeepTheWaitingCommands

/-! ## Hard reset and supply -/

/-- What holds in the reset state: everything the invariants below keep. -/
def Obligations.ResetStateIsSound : Prop :=
  State.reset.resetHeld ∧ State.reset.nodeSound ∧ State.reset.timerSound ∧ State.reset.queue.ordered ∧
    State.reset.queueEmptyUnaddressed ∧ State.reset.cellsSound ∧ State.reset.tablesSound ∧
    State.reset.settingsSound ∧ State.reset.sweepSound ∧ State.reset.scannerSound ∧ State.reset.stepSound ∧
    State.reset.alertSound ∧ State.reset.toneSilent ∧ State.reset.lightSound ∧ State.reset.light.bounded ∧ State.reset.relayBounded

/-- R147: what Node Control holds while the hard reset lasts, and every other block with it. -/
def Obligations.HardResetIsHeldByEveryStep : Prop :=
  ∀ s t : State, s.resetHeld → step s = .next t → t.resetHeld

/-- HARD_RESET in a hard reset takes the pin alone (assumption 27, DEDUCED). Outside one it enters BYPASS: a slot being
sent is ended with AB; the IDLE symbols already sent stay counted, and in BYPASS_TAIL none is counted and no AB is sent
(assumption 19, DEDUCED). -/
def Claim.HardResetEntersBypass : Prop :=
  ∀ s : State,
    (s.inReset = true → exec .hardReset s = .next (s.withRstLow true)) ∧
    (s.inReset = false → ∀ sent, s.relay.transmit = .idle sent → (∀ n, s.relay.mode ≠ .bypassTail n) →
      exec .hardReset s = .next
        { State.reset with
          relay := ⟨.bypass .waiting, Slot.free, Slot.free, [], .between, .idle sent, 0, some .idle⟩
          pending := s.pending }) ∧
    (s.inReset = false → ∀ sent n, s.relay.transmit = .idle sent → s.relay.mode = .bypassTail n →
      exec .hardReset s = .next
        { State.reset with
          relay := ⟨.bypass .waiting, Slot.free, Slot.free, [], .between, .idle 0, 0, some .idle⟩
          pending := s.pending }) ∧
    (s.inReset = false → ∀ id, s.relay.transmit = .sending id →
      exec .hardReset s = .next
        { State.reset with
          relay := ⟨.bypass .waiting, Slot.free, Slot.free, [], .between, .idle 0, 0, some .ab⟩
          pending := s.pending })

/-- R45, R181: the release of RST_N is the first sweep start, and the relay leaves BYPASS by what its receiver is
doing. -/
def Obligations.ReleaseIsTheFirstSweepStart : Prop :=
  ∀ (s : State) (rep : Repetition),
    s = s.heldInReset true true s.relay → s.relay.mode = .bypass rep →
      ∃ t, exec .resetRelease s = .next t ∧ t.inReset = false ∧ t.node = NodeControl.reset ∧
        t.drive.sweepCounter = 1 ∧ t.drive.phase = 1 ∧ t.drive.blinkA = ⟨true, 1, false⟩ ∧
        t.drive.blinkB = ⟨true, 1, false⟩ ∧ t.drive.sweep.mode = .off ∧ t.drive.sweep.shown = Plane.reset ∧
        t.settings = defaultSettings ∧ t.tables = TableStore.reset ∧ t.cells = CellStore.reset ∧
        t.scanner = Scanner.reset ∧ t.queue = EventQueue.reset ∧ t.light = LightUnit.reset ∧ t.tone = none ∧
        t.engine = .idle ∧ t.relay = { s.relay with mode := t.relay.mode } ∧
        t.relay.mode =
          match rep with
          | .waiting => .relay
          | .between => .relay
          | .inFrame bytes => .bypassTail bytes

/-- The supply falls below its range, which is a hard reset with the transmit pair undriven (assumption 18), and comes
back into range, with no IDLE symbol counted yet (assumption 16). -/
def Claim.SupplyHoldsAndEndsTheReset : Prop :=
  ∀ s : State,
    (s.supplyOk = true →
      exec .supplyLoss s = .next (s.heldInReset s.rstLow false { Relay.reset with tx := none })) ∧
    (s.supplyOk = false → s.rstLow = true →
      exec .supplyInRange s = .next (s.heldInReset true true Relay.reset)) ∧
    (s.supplyOk = false → s.rstLow = false → s = s.heldInReset false false s.relay →
      ∃ t, exec .supplyInRange s = .next t ∧ t.inReset = false ∧ t.relay = { Relay.reset with mode := .relay } ∧
        t.drive.sweepCounter = 1 ∧ t.node = NodeControl.reset)

/-- HARD_RESET, SUPPLY_LOSS and SUPPLY_IN_RANGE. -/
def Obligations.HardResetAndSupplyTakeHold : Prop := Claim.HardResetEntersBypass ∧ Claim.SupplyHoldsAndEndsTheReset

/-- R45: in a hard reset every segment line, static lines included, and every common line is inactive, and both tone
outputs are low. -/
def Claim.OutputsAreInactiveInReset : Prop :=
  ∀ s : State, s.inReset = true → s.segmentLines = 0 ∧ s.commonLines = 0 ∧ s.toneP = false ∧ s.toneN = false

/-! ## Request items -/

/-- What the master writes for a request is read as that request, and fits in an item. -/
def Claim.WrittenRequestsAreRead : Prop :=
  ∀ (c : Instr) (code : Byte) (params : List Byte), c.wellFormed = true → requestItem c = some (code, params) →
    requestOf code params = some c ∧ params.length ≤ 255

/-- A request that is read is the one whose item it is: no bit of an item is dropped. -/
def Claim.ReadRequestsAreTheirItems : Prop :=
  ∀ (c : Instr) (code : Byte) (params : List Byte), requestOf code params = some c → requestItem c = some (code, params)

/-- The items of section 12.3 and the requests they spell are read and written alike. -/
def Obligations.RequestsAreReadAsWritten : Prop := Claim.WrittenRequestsAreRead ∧ Claim.ReadRequestsAreTheirItems

/-- Items written out from section 12.3. -/
def Claim.SampleItemsAreRead : Prop :=
  requestOf 0x01 [1] = some (.readStatus true) ∧ requestOf 0x02 [10, 6] = some (.settingRead 10 6) ∧
  requestOf 0x03 [4, 8, 16, 0] = some (.settingWrite [(4, 8), (16, 0)]) ∧
  requestOf 0x04 [0x12, 0x34] = some (.setTime 0x1234) ∧ requestOf 0x12 [3] = some (.nodeReset 3) ∧
  requestOf 0x20 [5, 65, 0x10, 0x84] = some (.writeCells 5 [65, 0x10, 0x84]) ∧
  requestOf 0x22 [2, 0, 8, 1] = some (.readCells 2 0 8 1) ∧
  requestOf 0x30 [1, 0x01, 0x20, 0x41, 0x07] = some (.tableLoad 1 0x0120 [0x41, 0x07]) ∧
  requestOf 0x32 [0x0B] = some (.tableActivate 0x0B) ∧ requestOf 0x40 [90] = some (.ackEvents 90) ∧
  requestOf 0x42 [] = some .toneStop

/-- Reserved bits, unsuitable lengths and unknown codes are not requests (R188). -/
def Claim.UnsuitableItemsAreNotRequests : Prop :=
  (∀ p : Byte, p.toNat ≥ 2 → requestOf 0x01 [p] = none) ∧
  (∀ p : Byte, p.toNat ≥ 128 → requestOf 0x32 [p] = none ∧ requestOf 0x33 [p] = none) ∧
  (∀ params, params.length % 2 = 1 ∨ params = [] → requestOf 0x03 params = none) ∧
  (∀ (first code attr lead : Byte), attr.toNat ≥ 32 → requestOf 0x20 [first, code, attr, lead] = none) ∧
  (∀ (first code attr lead : Byte), 1 ≤ lead.toNat → lead.toNat < 128 →
    requestOf 0x20 [first, code, attr, lead] = none) ∧
  (∀ (code : Byte) (params : List Byte), 0x43 ≤ code.toNat ∨ code = 0 → requestOf code params = none)

/-- Items written out from section 12.3, and items that are no request. -/
def Obligations.ItemsAreDecodedFromTheirBytes : Prop := Claim.SampleItemsAreRead ∧ Claim.UnsuitableItemsAreNotRequests

/-! ## Frame Relay -/

/-- R171: an SD between frames, or after an oversize frame, opens a frame in the first FREE slot, or as UNSTORED. The end
mark a FILLING slot holds is the model's choice (assumption 26). -/
def Claim.FrameOpensInTheFirstFreeSlot : Prop :=
  ∀ s : State, s.relay.mode = .relay → s.relay.rx = .between ∨ s.relay.rx = .discarding →
    (s.relay.slot1.use = .free → exec .frameOpen s = .next
      (s.withRelay { s.relay with slot1 := ⟨.filling, [], [], .ed⟩, rx := .storing .one })) ∧
    (s.relay.slot1.use ≠ .free → s.relay.slot2.use = .free → exec .frameOpen s = .next
      (s.withRelay { s.relay with slot2 := ⟨.filling, [], [], .ed⟩, rx := .storing .two })) ∧
    (s.relay.slot1.use ≠ .free → s.relay.slot2.use ≠ .free → exec .frameOpen s = .next
      (s.withRelay { s.relay with rx := .unstored 0 }))

/-- R171, R173, R174: a data symbol is stored as its byte and an invalid one as 0 with its mark; the 255th byte ends the
frame; an overrun frame is counted; other receive states drop the symbol. -/
def Claim.BytesAreStoredUpTo254 : Prop :=
  ∀ (s : State) (sym : Symbol) (b : Byte) (mark : Bool), s.relay.mode = .relay →
    (sym = .data b ∧ mark = false) ∨ (sym = .invalid ∧ b = 0 ∧ mark = true) →
    (∀ id, s.relay.rx = .storing id → (s.slot id).bytes.length < 254 →
      exec (.byteReceived sym) s = .next (s.putSlot id
        { s.slot id with bytes := (s.slot id).bytes ++ [b], invalid := (s.slot id).invalid ++ [mark] })) ∧
    (∀ id, s.relay.rx = .storing id → (s.slot id).bytes.length ≥ 254 →
      exec (.byteReceived sym) s = .next (s.readied id .ab .discarding s.errorsNext)) ∧
    (∀ n, s.relay.rx = .unstored n → n < 254 →
      exec (.byteReceived sym) s = .next (s.withRelay { s.relay with rx := .unstored (n + 1) })) ∧
    (∀ n, s.relay.rx = .unstored n → n ≥ 254 →
      exec (.byteReceived sym) s = .next
        (s.withRelay { s.relay with rx := .discarding, errors := s.errorsNext })) ∧
    (s.relay.rx = .between ∨ s.relay.rx = .discarding → exec (.byteReceived sym) s = .next s)

/-- R171, R172, R174: an SD while a frame is open cuts it: a stored frame is READY with AB and counted, an overrun frame
is dropped and counted, and the SD then opens a frame. -/
def Claim.AnSdCutsTheOpenFrame : Prop :=
  ∀ s : State, s.relay.mode = .relay →
    (∀ id, s.relay.rx = .storing id →
      exec .frameOpen s = exec .frameOpen (s.readied id .ab .between s.errorsNext)) ∧
    (∀ n, s.relay.rx = .unstored n →
      exec .frameOpen s = exec .frameOpen (s.withRelay { s.relay with rx := .between, errors := s.errorsNext }))

/-- FRAME_OPEN and BYTE_RECEIVED. -/
def Obligations.ReceivedSymbolsAreStored : Prop :=
  Claim.FrameOpensInTheFirstFreeSlot ∧
    Claim.BytesAreStoredUpTo254 ∧
    Claim.AnSdCutsTheOpenFrame

/-- R172: a frame that is not good becomes READY with AB; it is counted unless it was aborted. -/
def Claim.FramesNotGoodAreEndedWithAbort : Prop :=
  ∀ (s : State) (id : SlotId), s.storesIn id →
    exec (.frameEnd .aborted) s = .next (s.readied id .ab .between s.relay.errors) ∧
    exec (.frameEnd .cutByIdle) s = .next (s.readied id .ab .between s.errorsNext) ∧
    ((s.slot id).good = false →
      exec (.frameEnd .closed) s = .next (s.readied id .ab .between s.errorsNext)) ∧
    ((s.slot id).bytes.length = 254 →
      exec (.frameEnd .oversize) s = .next (s.readied id .ab .discarding s.errorsNext)) ∧
    ∃ t, exec (.frameEnd .cutBySd) s = .next t ∧
      exec .frameOpen (s.readied id .ab .between s.errorsNext) = .next t

/-- R174: an overrun frame is dropped at its end and counted whatever the end, and no slot changes. -/
def Claim.OverrunFramesAreDroppedAndCounted : Prop :=
  ∀ (s : State) (n : Nat), s.relay.mode = .relay → s.relay.rx = .unstored n →
    (∀ e, e = .closed ∨ e = .aborted ∨ e = .cutByIdle →
      exec (.frameEnd e) s = .next (s.withRelay { s.relay with rx := .between, errors := s.errorsNext })) ∧
    (n ≥ 254 → exec (.frameEnd .oversize) s = .next
      (s.withRelay { s.relay with rx := .discarding, errors := s.errorsNext })) ∧
    ∃ t, exec (.frameEnd .cutBySd) s = .next t ∧
      exec .frameOpen (s.withRelay { s.relay with rx := .between, errors := s.errorsNext }) = .next t

/-- R173: after an oversize frame the receiver drops symbols until ED, AB or IDLE, or until an SD opens a frame; a 255th
byte is none of them and changes nothing (assumption 3). -/
def Claim.DiscardingEndsAtADelimiter : Prop :=
  ∀ s : State, s.relay.mode = .relay → s.relay.rx = .discarding →
    (∀ e, e = .closed ∨ e = .aborted ∨ e = .cutByIdle →
      exec (.frameEnd e) s = .next (s.withRelay { s.relay with rx := .between })) ∧
    exec (.frameEnd .cutBySd) s = exec .frameOpen s ∧ exec (.frameEnd .oversize) s = .next s

/-- The ends of frames that are not handed over. -/
def Obligations.FramesNotGoodAreAbortedOrDropped : Prop :=
  Claim.FramesNotGoodAreEndedWithAbort ∧
    Claim.OverrunFramesAreDroppedAndCounted ∧
    Claim.DiscardingEndsAtADelimiter

/-- R148, R175: a good frame that no owner takes restarts the timer of an ONLINE node, changes nothing in a QUIESCENT one,
and is sent on byte for byte. -/
def Claim.UnownedGoodFramesAreSentOnUnchanged : Prop :=
  ∀ (s : State) (id : SlotId) (kind : BitVec 4), s.closesGood id kind →
    s.node.state = .online ∨ s.node.state = .quiescent → kind ≠ 1 → kind ≠ 4 →
    (kind = 2 → s.node.address ≠ some (frameDest (s.slot id).bytes) ∧ frameDest (s.slot id).bytes ≠ 63) →
      exec (.frameEnd .closed) s = .next
        ((s.withNode (if s.node.state = .online then { s.node with silence := 0 } else s.node)).sentOn id
          (s.slot id).bytes)

/-- R148, R175: an UNADDRESSED node sends on every good frame that is no ENUMERATE, and nothing else happens. -/
def Claim.UnaddressedNodesOnlyRelay : Prop :=
  ∀ (s : State) (id : SlotId) (kind : BitVec 4), s.closesGood id kind → s.node.state = .unaddressed →
    kind ≠ 1 → exec (.frameEnd .closed) s = .next (s.sentOn id (s.slot id).bytes)

/-- R161: `s` returned from STANDALONE to ONLINE: an ALERT play alone stops, LINK_RESUMED is submitted, the silence time
starts again, and fallback-hold stays. -/
def Claim.resumed (s : State) : State :=
  ((s.withNode { s.node with state := .online, silence := 0 }).withTone
    (if s.plays .alert then none else s.tone)).withQueue
      (s.queue.take .linkResumed (BitVec.ofNat 8 (min 255 ((s.node.silence + 99) / 100))) s.node.time)

/-- R161: a good frame in STANDALONE returns the node to ONLINE. Here the frame has no owner. -/
def Claim.GoodFramesEndStandalone : Prop :=
  ∀ (s : State) (id : SlotId), s.closesGood id 3 → s.node.state = .standalone →
    exec (.frameEnd .closed) s = .next ((Claim.resumed s).sentOn id (s.slot id).bytes)

/-- R161, R175, R183: a good frame of any kind in STANDALONE first returns the node, and is then taken as in ONLINE. No COMMAND is in
process in STANDALONE (AddressAndQueueFollowTheNodeState keeps State.nodeSound). -/
def Claim.FramesInStandaloneAreTakenOnline : Prop :=
  ∀ (s : State) (id : SlotId) (kind : BitVec 4), s.receivesGood id kind → s.node.state = .standalone →
    exec (.frameEnd .closed) s = exec (.frameEnd .closed) (Claim.resumed s)

/-- The good-frame report in each node state, and the frames that no owner takes. -/
def Obligations.UnownedGoodFramesAreSentOn : Prop :=
  Claim.UnownedGoodFramesAreSentOnUnchanged ∧
    Claim.UnaddressedNodesOnlyRelay ∧
    Claim.GoodFramesEndStandalone ∧
    Claim.FramesInStandaloneAreTakenOnline

/-- R176: at the end of a frame every frame held keeps its length. -/
def Claim.FramesKeepTheirLength : Prop :=
  ∀ (s t : State) (e : FrameEnd) (id : SlotId), (s.slot id).use ≠ .free → exec (.frameEnd e) s = .next t →
    (t.slot id).bytes.length = (s.slot id).bytes.length

/-- R150, R152: the node takes the next address, the fields advance in place, and the frame goes on. -/
def Claim.EnumerateGivesAnAddress : Prop :=
  ∀ (s : State) (id : SlotId), s.receivesGood id 1 → enumAccepted (s.slot id).bytes = true →
    (enumNext (s.slot id).bytes).toNat ≤ 62 →
    let sent := withCrc (overwrite (s.slot id).bytes 5
      [enumNext (s.slot id).bytes + 1, BitVec.ofNat 8 (min 62 ((enumTaken (s.slot id).bytes).toNat + 1))])
    (s.node.state = .unaddressed →
      exec (.frameEnd .closed) s = .next
        (((s.withNode
            { s.node with state := .online, address := some (enumNext (s.slot id).bytes), silence := 0 }).withLight
          (if s.setting .lightMode = 0 then s.light.stop else s.light.start (s.setting .lightMode))).sentOn
            id sent)) ∧
    (s.node.state = .online → enumMode (s.slot id).bytes = 1 →
      exec (.frameEnd .closed) s = .next
        ((s.withNode { s.node with address := some (enumNext (s.slot id).bytes), silence := 0 }).sentOn id sent)) ∧
    (s.node.state = .quiescent → enumMode (s.slot id).bytes = 1 →
      exec (.frameEnd .closed) s = .next
        ((s.withNode { s.node with address := some (enumNext (s.slot id).bytes) }).sentOn id sent))

/-- R151, R153: with next address 63 the node that wants an address sets FULL, and in FRESH mode becomes UNADDRESSED. That
FULL is written as 1 over any value is the model's reading (assumption 29, DEDUCED), and what the light unit's count and
window sweeps hold in STOPPED its choice (assumption 26, DESIGN CHOICE). -/
def Claim.ExhaustedEnumerateRemovesTheAddress : Prop :=
  ∀ (s : State) (id : SlotId), s.receivesGood id 1 → enumAccepted (s.slot id).bytes = true →
    enumNext (s.slot id).bytes = 63 →
    let sent := withCrc (overwrite (s.slot id).bytes 7 [1])
    (s.node.state = .online ∨ s.node.state = .quiescent → enumMode (s.slot id).bytes = 1 →
      exec (.frameEnd .closed) s = .next
        ((((((s.withNode { s.node with state := .unaddressed, address := none, silence := 0, fallbackHold := false
              }).withQueue EventQueue.reset).withTone none).withScanner Scanner.reset).withLight s.light.stop).sentOn
            id sent)) ∧
    (s.node.state = .unaddressed → exec (.frameEnd .closed) s = .next (s.sentOn id sent))

/-- R149 to R151: an ENUMERATE that fails the payload check, and a FILL frame at a node that has an address, change
nothing and go on unchanged. -/
def Claim.UntakenEnumeratesAreRelayed : Prop :=
  ∀ (s : State) (id : SlotId), s.receivesGood id 1 → s.node.state ≠ .standalone →
    enumAccepted (s.slot id).bytes = false ∨ (enumMode (s.slot id).bytes = 2 ∧ s.node.state ≠ .unaddressed) →
      exec (.frameEnd .closed) s = .next
        ((s.withNode (if s.node.state = .online then { s.node with silence := 0 } else s.node)).sentOn id
          (s.slot id).bytes)

/-- A good ENUMERATE frame in its three outcomes; in STANDALONE it is taken as in ONLINE
(UnownedGoodFramesAreSentOn). -/
def Obligations.EnumerateFramesAreTaken : Prop :=
  Claim.EnumerateGivesAnAddress ∧
    Claim.ExhaustedEnumerateRemovesTheAddress ∧
    Claim.UntakenEnumeratesAreRelayed

/-- R106 to R109: a gather pass in an ONLINE or QUIESCENT node: aging and go-back, then filling from slot 1, which begins
at payload byte 1 (frame byte 5). -/
def Claim.GatherPassAgesAndFills : Prop :=
  ∀ (s : State) (id : SlotId), s.closesGood id 4 → s.node.state = .online ∨ s.node.state = .quiescent →
    let bytes := (s.slot id).bytes
    let count := (bytes.getD 4 0).toNat
    let accepted := 1 ≤ count ∧ count ≤ 41 ∧ 1 + 6 * count ≤ bytes.length - 6
    let held := s.withNode (if s.node.state = .online then { s.node with silence := 0 } else s.node)
    let filled := fillSlots (s.node.address.getD 0) count 5 (s.setting .gatherQuota).toNat bytes
      (s.queue.ageAndGoBack (s.setting .resendAfter).toNat)
    (¬accepted → exec (.frameEnd .closed) s = .next (held.sentOn id bytes)) ∧
    (accepted → exec (.frameEnd .closed) s = .next ((held.withQueue filled.2).sentOn id (withCrc filled.1)))

/-- R107: every SENT entry is one pass older, held at 15; then, when the head is SENT and has waited RESEND_AFTER passes,
every entry is UNSENT. -/
def Claim.EntriesAgeOrGoBack : Prop :=
  ∀ (q : EventQueue) (resendAfter : Nat),
    let due := ∃ head rest age, q.entries = head :: rest ∧ head.delivery = .sent age ∧ resendAfter ≤ min 15 (age + 1)
    (¬due → q.ageAndGoBack resendAfter =
      { q with entries := q.entries.map fun e =>
          { e with delivery := match e.delivery with | .unsent => .unsent | .sent age => .sent (min 15 (age + 1)) } }) ∧
    (due → q.ageAndGoBack resendAfter =
      { q with entries := q.entries.map fun e => { e with delivery := .unsent } })

/-- R108, R109: what filling writes: the i-th empty slot takes the i-th UNSENT entry in its six bytes, up to the count
written; every other byte stays; an entry written is SENT with age 0 and is otherwise as before, like every other entry. -/
def Claim.FilledSlotsCarryTheEntries : Prop :=
  ∀ (address : Byte) (slots at_ quota : Nat) (bytes : List Byte) (q : EventQueue),
    at_ + 6 * slots ≤ bytes.length → sentFirst q.entries →
    let before := fun (j : Nat) => (List.range j).countP fun i => bytes.getD (at_ + 6 * i) 0 == 0
    let unsent := q.entries.filter fun e => !e.isSent
    let written := min quota (min (before slots) unsent.length)
    let filled := fillSlots address slots at_ quota bytes q
    (∀ (j : Nat) (e : Entry), j < slots → bytes.getD (at_ + 6 * j) 0 = 0 → before j < written →
      unsent[before j]? = some e →
      (filled.1.drop (at_ + 6 * j)).take 6 =
        [address, e.seq,
          match e.kind with
            | .keyDown => 1 | .keyUp => 2 | .keyRepeat => 3 | .wakeKey => 4 | .linkResumed => 5
            | .lost => 6 | .lightLevel => 7 | .commitShown => 8 | .tablesActive => 9,
          e.argument, BitVec.ofNat 8 (e.time.toNat / 256), BitVec.ofNat 8 e.time.toNat]) ∧
    (∀ j, j < slots → bytes.getD (at_ + 6 * j) 0 ≠ 0 ∨ written ≤ before j →
      (filled.1.drop (at_ + 6 * j)).take 6 = (bytes.drop (at_ + 6 * j)).take 6) ∧
    filled.1.take at_ = bytes.take at_ ∧ filled.1.drop (at_ + 6 * slots) = bytes.drop (at_ + 6 * slots) ∧
    ∀ i, filled.2.entries[i]? = q.entries[i]?.map fun e =>
      if e.isSent = false ∧ ((q.entries.take i).countP fun e' => !e'.isSent) < written
        then { e with delivery := .sent 0 } else e

/-- R108: the entries written in one pass are the smallest of the quota, the empty slots and the unsent count, in the
order of the queue. -/
def Claim.FillingWritesTheSmallestCount : Prop :=
  ∀ (address : Byte) (slots at_ quota : Nat) (bytes : List Byte) (q : EventQueue),
    at_ + 6 * slots ≤ bytes.length → sentFirst q.entries →
    let empty := (List.range slots).countP fun j => bytes.getD (at_ + 6 * j) 0 == 0
    let unsent := q.entries.countP fun e => !e.isSent
    let filled := fillSlots address slots at_ quota bytes q
    filled.1.length = bytes.length ∧ filled.2.entries.length = q.entries.length ∧
      (filled.2.entries.countP fun e => !e.isSent) = unsent - min quota (min empty unsent) ∧
      sentFirst filled.2.entries ∧ filled.2.nextSeq = q.nextSeq ∧ filled.2.pendingLoss = q.pendingLoss

/-- A gather pass: aging, go-back, and what filling writes where. -/
def Obligations.GatherPassesAgeAndFill : Prop :=
  Claim.GatherPassAgesAndFills ∧
    Claim.EntriesAgeOrGoBack ∧
    Claim.FilledSlotsCarryTheEntries ∧
    Claim.FillingWritesTheSmallestCount

/-- R183: a COMMAND for this node or for all begins its processing with its first item. -/
def Claim.CommandsWithItemsAreTaken : Prop :=
  ∀ (s : State) (id : SlotId) (address : Byte), s.receivesGood id 2 →
    s.node.state = .online ∨ s.node.state = .quiescent → s.node.address = some address → address ≠ 63 →
    1 ≤ (framePayload (s.slot id).bytes).length → (framePayload (s.slot id).bytes).getD 0 0 ≠ 0 →
    ∀ broadcast, frameDest (s.slot id).bytes = (if broadcast then 63 else address) →
      exec (.frameEnd .closed) s = .next
        (((s.withNode (if s.node.state = .online then { s.node with silence := 0 } else s.node)).setReceive
          .between).withEngine
            (.taking ⟨id, broadcast, address, framePayload (s.slot id).bytes, 1, 0, 1, false, false⟩))

/-- R184, R185, R193: a COMMAND with no payload or with request count 0 is answered at once by a REPLY whose payload is
all 0, and goes on unchanged when it is a broadcast. -/
def Claim.CommandsWithoutItemsAreAnsweredAtOnce : Prop :=
  ∀ (s : State) (id : SlotId) (address : Byte), s.receivesGood id 2 →
    s.node.state = .online ∨ s.node.state = .quiescent → s.node.address = some address → address ≠ 63 →
    let bytes := (s.slot id).bytes
    let held := s.withNode (if s.node.state = .online then { s.node with silence := 0 } else s.node)
    framePayload bytes = [] ∨ (framePayload bytes).getD 0 0 = 0 →
    (frameDest bytes = 63 → exec (.frameEnd .closed) s = .next (held.sentOn id bytes)) ∧
    (frameDest bytes = address → exec (.frameEnd .closed) s = .next (held.sentOn id
      (withCrc ([3, address, bytes.getD 2 0, bytes.getD 3 0] ++ List.replicate (bytes.length - 6) 0 ++ [0, 0]))))

/-- While a COMMAND is in process, the end of an ENUMERATE or of a COMMAND for this node or for all waits (the model's
reading, assumption 10, DEDUCED). -/
def Claim.OwnedFramesWaitForTheProcessing : Prop :=
  ∀ (s : State) (id : SlotId) (kind : BitVec 4), s.closesGood id kind → s.engine ≠ .idle →
    kind = 1 ∨ (kind = 2 ∧ (s.node.state = .online ∨ s.node.state = .quiescent) ∧
      (s.node.address = some (frameDest (s.slot id).bytes) ∨ frameDest (s.slot id).bytes = 63)) →
      exec (.frameEnd .closed) s = .next s

/-- A good COMMAND for this node or for all; in STANDALONE it is taken as in ONLINE (UnownedGoodFramesAreSentOn). -/
def Obligations.CommandsBeginProcessing : Prop :=
  Claim.CommandsWithItemsAreTaken ∧
    Claim.CommandsWithoutItemsAreAnsweredAtOnce ∧
    Claim.OwnedFramesWaitForTheProcessing

/-- R177: the earliest READY slot is begun once two IDLE symbols have followed the last delimiter. That the command
carries the IDLE symbols sent, and counts them, is the model's choice (assumption 7, DESIGN CHOICE). -/
def Claim.TransmissionWaitsForTwoIdles : Prop :=
  ∀ (s : State) (idles sent : Nat), s.relay.mode = .relay → s.relay.transmit = .idle sent →
    (∀ id rest, s.relay.readyOrder = id :: rest → 2 ≤ sent + idles →
      exec (.transmitStart idles) s = .next (let r := s.putSlot id { s.slot id with use := .sending }
        r.withRelay { r.relay with transmit := .sending id, readyOrder := rest, tx := some .sd })) ∧
    (1 ≤ idles → s.relay.readyOrder = [] ∨ sent + idles < 2 →
      exec (.transmitStart idles) s = .next
        (s.withRelay { s.relay with transmit := .idle (min 2 (sent + idles)), tx := some .idle }))

/-- R177: when the end mark has left, the slot is FREE and no IDLE symbol has followed it. -/
def Claim.SentSlotsBecomeFree : Prop :=
  ∀ (s : State) (id : SlotId), s.relay.mode = .relay → s.relay.transmit = .sending id →
    exec .transmitEnd s = .next (let r := s.putSlot id Slot.free
      r.withRelay { r.relay with transmit := .idle 0, tx := some (markSymbol (s.slot id).mark) })

/-- TRANSMIT_START and TRANSMIT_END. -/
def Obligations.TransmissionFollowsTwoIdles : Prop := Claim.TransmissionWaitsForTwoIdles ∧ Claim.SentSlotsBecomeFree

/-- R179, R180: while the relay repeats, each symbol leaves as it came, the IDLE symbols since the last delimiter are
counted, and the bytes since an SD; before that, only an SD after two IDLE symbols is repeated. That one IDLE is sent and
counted for each symbol received before repetition is the model's choice (assumption 7, DESIGN CHOICE), and that the bytes
of a repeated frame are counted and held at 254 is its reading (assumption 29, DEDUCED). -/
def Claim.BypassRepeatsEverySymbol : Prop :=
  ∀ (s : State) (sym : Symbol) (sent : Nat), s.supplyOk = true → s.relay.transmit = .idle sent →
    (∀ rep, s.relay.mode = .bypass rep → rep ≠ .waiting →
      exec (.bypassRepeat sym) s = .next (s.withRelay
        { s.relay with
          mode := .bypass
            (match sym, rep with
              | .sd, _ => .inFrame 0
              | .data _, .inFrame n => .inFrame (min 254 (n + 1))
              | .invalid, .inFrame n => .inFrame (min 254 (n + 1))
              | _, _ => .between)
          transmit := .idle
            (match sym with
              | .sd => 0
              | .ed => 0
              | .ab => 0
              | .idle => min 2 (sent + 1)
              | .data _ => sent
              | .invalid => sent)
          tx := some sym })) ∧
    (s.relay.mode = .bypass .waiting → sym = .sd → 2 ≤ sent →
      exec (.bypassRepeat sym) s = .next
        (s.withRelay { s.relay with mode := .bypass (.inFrame 0), transmit := .idle 0, tx := some .sd })) ∧
    (s.relay.mode = .bypass .waiting → sym ≠ .sd ∨ sent < 2 →
      exec (.bypassRepeat sym) s = .next
        (s.withRelay { s.relay with transmit := .idle (min 2 (sent + 1)), tx := some .idle }))

/-- R180, R181: a symbol received in BYPASS_TAIL is repeated within the frame, up to 254 bytes (their count is assumption 29,
DEDUCED); the symbol that ends the frame ends it as BYPASS_TAIL_END does. -/
def Claim.TailSymbolsAreRepeatedUntilTheEnd : Prop :=
  ∀ (s : State) (n : Nat), s.supplyOk = true → s.relay.mode = .bypassTail n →
    (∀ sym, (∃ b, sym = .data b) ∨ sym = .invalid →
      (n < 254 → exec (.bypassRepeat sym) s = .next
        (s.withRelay { s.relay with mode := .bypassTail (n + 1), tx := some sym })) ∧
      (254 ≤ n → exec (.bypassRepeat sym) s = exec (.bypassTailEnd .oversize) s)) ∧
    exec (.bypassRepeat .ed) s = exec (.bypassTailEnd .closed) s ∧
    exec (.bypassRepeat .ab) s = exec (.bypassTailEnd .aborted) s ∧
    exec (.bypassRepeat .idle) s = exec (.bypassTailEnd .cutByIdle) s ∧
    exec (.bypassRepeat .sd) s = exec (.bypassTailEnd .cutBySd) s

/-- R181: the end of the frame repeated in BYPASS_TAIL. -/
def Claim.BypassTailEndsInRelay : Prop :=
  ∀ (s : State) (n sent : Nat), s.relay.mode = .bypassTail n → s.relay.transmit = .idle sent →
    let left := fun (sym : Symbol) (rx : Receive) =>
      s.withRelay { s.relay with mode := .relay, transmit := .idle 0, tx := some sym, rx := rx }
    exec (.bypassTailEnd .closed) s = .next (left .ed .between) ∧
    exec (.bypassTailEnd .aborted) s = .next (left .ab .between) ∧
    exec (.bypassTailEnd .cutByIdle) s = .next (left .ab .between) ∧
    (n ≥ 254 → exec (.bypassTailEnd .oversize) s = .next (left .ab .discarding)) ∧
    exec (.bypassTailEnd .cutBySd) s = exec .frameOpen (left .ab .between)

/-- BYPASS_REPEAT and BYPASS_TAIL_END. -/
def Obligations.BypassRepeatsUntilTheTailEnds : Prop :=
  Claim.BypassRepeatsEverySymbol ∧
    Claim.TailSymbolsAreRepeatedUntilTheEnd ∧
    Claim.BypassTailEndsInRelay

/-- R170, R178: slots hold at most 254 bytes with a mark for each, and the link error count holds at 65535. -/
def Claim.RelayBoundsAreKept : Prop :=
  ∀ s t : State, s.relayBounded → step s = .next t → t.relayBounded

/-- The length of the frames held, and the bounds of the slots and of the link error count. -/
def Obligations.FramesKeepLengthAndBounds : Prop := Claim.FramesKeepTheirLength ∧ Claim.RelayBoundsAreKept

/-! ## Request Engine -/

/-- R185: the frame when processing of an addressed COMMAND has ended: header, items answered, the reply items written
so far, and 0 to the end of the payload; the CRC bytes are not touched here. -/
def Claim.RepliesAreClosedInPlace : Prop :=
  ∀ (s : State) (p : Processing) (b0 b1 tag length : Byte) (payload crc : List Byte),
    (s.slot p.slot).bytes = b0 :: b1 :: tag :: length :: (payload ++ crc) →
    payload.length = p.request.length → 1 ≤ p.reply → p.reply ≤ payload.length →
      ((s.closeReply p).slot p.slot).bytes =
        (3#8 ||| (if p.truncated then 0x40 else 0) ||| (if p.resetStop then 0x80 else 0)) :: p.address :: tag ::
          length ::
            ((BitVec.ofNat 8 p.answered :: (payload.drop 1).take (p.reply - 1)) ++
              List.replicate (payload.length - p.reply) 0 ++ crc)

/-- R184: the REPLY to a COMMAND with payload length 0 has an empty payload. -/
def Claim.EmptyRepliesStayEmpty : Prop :=
  ∀ (s : State) (p : Processing) (b0 b1 tag length : Byte) (crc : List Byte),
    (s.slot p.slot).bytes = b0 :: b1 :: tag :: length :: crc → p.request = [] → p.truncated = false →
    p.resetStop = false → ((s.closeReply p).slot p.slot).bytes = 3 :: p.address :: tag :: length :: crc

/-- The frame of an addressed COMMAND once its reply is closed. -/
def Obligations.RepliesAreLaidOutInPlace : Prop := Claim.RepliesAreClosedInPlace ∧ Claim.EmptyRepliesStayEmpty

/-- R184 to R186: what answering an item does, whatever its request: the reply item stands at the reply position and every
other byte stays. While items remain, the parse position passes the item and the engine goes on; after the last one the
reply is closed and the frame is readied with its CRC. -/
def Obligations.ItemsAreAnsweredInPlace : Prop :=
  ∀ (s : State) (p : Processing) (code : Byte) (params : List Byte) (status : Status) (data : List Byte)
    (b0 b1 tag length c0 c1 : Byte) (payload : List Byte), p.broadcast = false →
    (s.slot p.slot).bytes = [b0, b1, tag, length] ++ payload ++ [c0, c1] → payload.length = p.request.length →
    1 ≤ p.reply → p.reply + 3 + data.length ≤ payload.length →
    let value := match status with
      | .ok => 0 | .badRequest => 1 | .badRange => 2 | .badCode => 3 | .badLink => 4 | .badTable => 5
      | .busy => 6 | .badAck => 7 | .badState => 8
    let item := [code, value, BitVec.ofNat 8 data.length] ++ data
    let finish := p.reply + 3 + data.length
    (p.answered + 1 < (p.request.getD 0 0).toNat →
      s.answered p code params status data =
        (s.putSlot p.slot { s.slot p.slot with
          bytes := [b0, b1, tag, length] ++ (payload.take p.reply ++ item ++ payload.drop finish) ++ [c0, c1] }).withEngine
            (.taking { p with parse := p.parse + 2 + params.length, answered := p.answered + 1, reply := finish })) ∧
    ((p.request.getD 0 0).toNat ≤ p.answered + 1 →
      s.answered p code params status data =
        ((s.putSlot p.slot { s.slot p.slot with
          bytes := withCrc
            ([3#8 ||| (if p.truncated then 0x40 else 0) ||| (if p.resetStop then 0x80 else 0), p.address, tag, length] ++
              (BitVec.ofNat 8 (p.answered + 1) :: (payload.drop 1).take (p.reply - 1)) ++ item ++
              List.replicate (payload.length - finish) 0 ++ [c0, c1]) }).readied p.slot .ed s.relay.rx
                s.relay.errors).withEngine .idle)

/-- R186 step 2: an item that fails the room check sets TRUNCATED, is not answered, has no effect, and ends the
processing: the reply is closed and the frame is readied. -/
def Claim.RoomCheckTruncates : Prop :=
  ∀ (s : State) (p : Processing) (c : Instr) (code : Byte) (params : List Byte),
    s.engine = .taking p → p.broadcast = false → p.item = .whole code params →
    p.room < largestReply code params →
    requestOf code params = some c ∨ (requestOf code params = none ∧ c = .unknownRequest code params) →
      exec c s = .next
        (((s.closeReply { p with truncated := true }).readyGood p.slot).withEngine .idle)

/-- R187: a malformed item is answered BAD_REQUEST with its code as read, when three bytes fit, and ends the processing;
otherwise TRUNCATED is set. -/
def Claim.MalformedItemsEndProcessing : Prop :=
  ∀ (s : State) (p : Processing) (code : Byte), s.engine = .taking p → p.item = .malformed code →
    (p.broadcast = false → 3 ≤ p.room → exec .malformedItem s = .next
      (((((s.writeReply p [code, 1, 0]).closeReply
        { p with answered := p.answered + 1, reply := p.reply + 3 })).readyGood p.slot).withEngine .idle)) ∧
    (p.broadcast = false → p.room < 3 → exec .malformedItem s = .next
      (((s.closeReply { p with truncated := true }).readyGood p.slot).withEngine .idle)) ∧
    (p.broadcast = true → exec .malformedItem s = .next ((s.readyGood p.slot).withEngine .idle))

/-- R188: an item of unsuitable form is answered BAD_REQUEST with no data, and processing goes on; in a broadcast it is
skipped. -/
def Claim.UnknownRequestsAreAnsweredBadRequest : Prop :=
  ∀ (s : State) (p : Processing) (code : Byte) (params : List Byte), s.engine = .taking p →
    p.item = .whole code params → requestOf code params = none →
    (p.broadcast = false → largestReply code params ≤ p.room →
      exec (.unknownRequest code params) s = .next (s.answered p code params .badRequest [])) ∧
    (p.broadcast = true → exec (.unknownRequest code params) s = .next (s.passedOver p params))

/-- R189: the largest reply item of every request, from its parameters as the item gives them, and 3 bytes for a code that
is no request. -/
def Claim.LargestRepliesFollowTheTable : Prop :=
  (∀ params, largestReply 0x01 params = 33) ∧
  (∀ first count : Byte, largestReply 0x02 [first, count] = 3 + min 24 count.toNat) ∧
  (∀ params, ∀ code ∈ [0x03, 0x20, 0x21, 0x33, 0x41, 0x42], largestReply code params = 4) ∧
  (∀ params, ∀ code ∈ [0x04, 0x10, 0x11, 0x12, 0x30], largestReply code params = 3) ∧
  (∀ params, ∀ code ∈ [0x23, 0x40], largestReply code params = 5) ∧
  (∀ params, largestReply 0x32 params = 6) ∧
  (∀ plane first count option : Byte, largestReply 0x22 [plane, first, count, option] =
    if option = 1 then 3 + min 64 count.toNat else 3 + 3 * min 64 count.toNat) ∧
  (∀ table copy hi lo count : Byte, largestReply 0x31 [table, copy, hi, lo, count] =
    if 7 ≤ table.toNat ∨ 2 ≤ copy.toNat then 3
    else 4 + min (count.toNat * ([1, 2, 1, 2, 2, 2, 20].getD table.toNat 0)) 240) ∧
  (∀ (code : Byte) (params : List Byte),
    code ∉ [0x01, 0x02, 0x03, 0x04, 0x10, 0x11, 0x12, 0x20, 0x21, 0x22, 0x23, 0x30, 0x31, 0x32, 0x33, 0x40, 0x41, 0x42] →
      largestReply code params = 3)

/-- Items that steps 1 to 3 of R186 decide. -/
def Obligations.UnfitItemsAreNotExecuted : Prop :=
  Claim.LargestRepliesFollowTheTable ∧
    Claim.RoomCheckTruncates ∧
    Claim.MalformedItemsEndProcessing ∧
    Claim.UnknownRequestsAreAnsweredBadRequest

/-- R193: the requests a broadcast does not execute are skipped. -/
def Claim.BroadcastsSkipTheOtherRequests : Prop :=
  ∀ (s : State) (p : Processing) (c : Instr) (code : Byte) (params : List Byte), s.offersBroadcast p c code params →
    code ∈ [0x01, 0x02, 0x20, 0x21, 0x22, 0x30, 0x31, 0x33, 0x40] → exec c s = .next (s.passedOver p params)

/-- R193: the requests a broadcast executes have the effect they have in an addressed COMMAND, and no reply; NODE_RESET
ends the processing and is due when its scope is valid. -/
def Claim.BroadcastsExecuteTheRest : Prop :=
  ∀ (s : State) (p : Processing) (c : Instr) (code : Byte) (params : List Byte), s.offersBroadcast p c code params →
    (code ∈ [0x03, 0x04, 0x10, 0x11, 0x23, 0x32, 0x41, 0x42] →
      ∃ (t : State) (status : Status) (data : List Byte), exec c s = .next (t.passedOver p params) ∧
        ∀ p' : Processing, (s.withEngine (.taking p')).offers p' c code params →
          exec c (s.withEngine (.taking p')) = .next
            ((t.withEngine (.taking p')).answered p' code params status data)) ∧
    (c = .nodeReset 1 → exec c s = .next (s.withEngine (.due p.slot .display))) ∧
    (c = .nodeReset 2 → exec c s = .next (s.withEngine (.due p.slot .events))) ∧
    (c = .nodeReset 3 → exec c s = .next (s.withEngine (.due p.slot .full))) ∧
    ∀ scope : Byte, scope = 0 ∨ 4 ≤ scope.toNat → c = .nodeReset scope →
      exec c s = .next ((s.readyGood p.slot).withEngine .idle)

/-- The requests of a broadcast COMMAND. -/
def Obligations.BroadcastsExecuteTheirRequests : Prop := Claim.BroadcastsSkipTheOtherRequests ∧ Claim.BroadcastsExecuteTheRest

/-- R194, R195, section 12.5: READ_STATUS answers its 30 bytes in their order and encodings, as they stand, and clears the
error count only when asked. The unsent count is the number of UNSENT entries (R98). -/
def Claim.ReadStatusReportsAndClears : Prop :=
  ∀ (s : State) (p : Processing) (clear : Bool) (code : Byte) (params : List Byte), sentFirst s.queue.entries →
    s.offers p (.readStatus clear) code params →
      let flag := fun (b : Bool) => if b then (1 : Byte) else 0
      let high := fun (n : Nat) => (BitVec.ofNat 8 (n / 256) : Byte)
      let low := fun (n : Nat) => (BitVec.ofNat 8 n : Byte)
      let data : List Byte :=
        [match s.node.state with | .unaddressed => 0 | .online => 1 | .standalone => 2 | .quiescent => 3,
          s.node.address.getD 0, high s.node.time.toNat, low s.node.time.toNat, s.cells.shownTag,
          flag s.cells.pendingValid, if s.cells.pendingValid then s.cells.pendingTag else 0,
          s.tables.glyph.generation, s.tables.route.generation, s.tables.dim.generation, s.tables.keymap.generation,
          s.tables.scan.generation, s.tables.light.generation, s.tables.tone.generation,
          BitVec.ofNat 8 s.tables.pendingSet.toNat, low s.queue.entries.length,
          low (s.queue.entries.countP fun e => !e.isSent), s.queue.nextSeq, low s.queue.pendingLoss,
          high s.relay.errors, low s.relay.errors, high s.light.result, low s.light.result, flag s.light.overflow,
          low s.light.level, low s.drive.level,
          match s.tone with
            | none => 0
            | some play => match play.kind with | .requested => 1 | .alert => 2 | .click => 3,
          match s.tone with | none => 0 | some play => play.number,
          flag s.node.fallbackHold, match s.scanner.mode with | .off => 0 | .full => 1 | .wake => 2]
      data.length = 30 ∧
      exec (.readStatus clear) s = .next
        (State.answered (if clear then s.withRelay { s.relay with errors := 0 } else s) p code params .ok data)

/-- R197. -/
def Claim.SettingReadReturnsStoredValues : Prop :=
  ∀ (s : State) (p : Processing) (first count code : Byte) (params : List Byte),
    s.offers p (.settingRead first count) code params →
    (1 ≤ count.toNat ∧ first.toNat + count.toNat ≤ 24 → exec (.settingRead first count) s = .next
      (s.answered p code params .ok ((s.settings.toList.drop first.toNat).take count.toNat))) ∧
    (¬(1 ≤ count.toNat ∧ first.toNat + count.toNat ≤ 24) → exec (.settingRead first count) s = .next
      (s.answered p code params .badRange []))

/-- READ_STATUS and SETTING_READ. -/
def Obligations.StatusAndSettingsAreRead : Prop := Claim.ReadStatusReportsAndClears ∧ Claim.SettingReadReturnsStoredValues

/-- R198: a list with a pair out of range is refused whole with that pair's id, and stores nothing. -/
def Claim.SettingWriteRefusesTheWholeList : Prop :=
  ∀ (s : State) (p : Processing) (good rest : List (Byte × Byte)) (bad : Byte × Byte) (code : Byte)
    (params : List Byte),
    (∀ pair ∈ good, ∃ n, settingOfId pair.1 = some n ∧ settingInRange n pair.2 = true) →
    (∀ n, settingOfId bad.1 = some n → settingInRange n bad.2 = false) →
    s.offers p (.settingWrite (good ++ bad :: rest)) code params →
      exec (.settingWrite (good ++ bad :: rest)) s = .next (s.answered p code params .badRange [bad.1])

/-- R198: an accepted list stores the last value given for each setting and leaves the others; then the owners act once.
This is the list that names no blink length, light setting or LOSS_TIMEOUT. -/
def Claim.SettingWriteStoresEveryValue : Prop :=
  ∀ (s : State) (p : Processing) (pairs : List (Byte × Byte)) (code : Byte) (params : List Byte),
    (∀ pair ∈ pairs, ∃ n, settingOfId pair.1 = some n ∧ settingInRange n pair.2 = true ∧
      n ∉ [.blinkAOn, .blinkAOff, .blinkBOn, .blinkBOff, .lightMode, .lightWindow, .lossTimeout]) →
    s.offers p (.settingWrite pairs) code params →
      ∃ st : Vector Byte 24,
        exec (.settingWrite pairs) s = .next ((s.withSettings st).answered p code params .ok []) ∧
        ∀ n, byteAt st (settingId n) =
          ((pairs.reverse.find? fun pair => settingOfId pair.1 == some n).map Prod.snd).getD (s.setting n)

/-- R34, R123, R159, R198: what the owners do once for an accepted write of one setting. -/
def Claim.SettingWritesActInTheirOwners : Prop :=
  ∀ (s : State) (p : Processing) (id value code : Byte) (params : List Byte) (n : Setting),
    settingOfId id = some n → settingInRange n value = true → s.offers p (.settingWrite [(id, value)]) code params →
    let stored := s.withSettings (storeSetting s.settings n value)
    let A := { s.drive.blinkA with restart := true }
    let B := { s.drive.blinkB with restart := true }
    (n = .blinkAOn ∨ n = .blinkAOff → exec (.settingWrite [(id, value)]) s = .next
      ((stored.withDrive { s.drive with blinkA := A }).answered p code params .ok [])) ∧
    (n = .blinkBOn ∨ n = .blinkBOff → exec (.settingWrite [(id, value)]) s = .next
      ((stored.withDrive { s.drive with blinkB := B }).answered p code params .ok [])) ∧
    (n = .lightMode ∨ n = .lightWindow → exec (.settingWrite [(id, value)]) s = .next
      ((stored.withLight (if stored.lightRuns then s.light.start (stored.setting .lightMode)
        else s.light.stop)).answered p code params .ok [])) ∧
    (n = .lossTimeout → s.node.state = .online → exec (.settingWrite [(id, value)]) s = .next
      ((stored.withNode { s.node with silence := 0 }).answered p code params .ok []))

/-- R34, R123, R159, R198: an accepted list, whatever settings it names: every value is stored, and then the owner of each
named setting acts once. What the light unit's count and window sweeps hold where they have no meaning is the model's choice
(assumption 26, DESIGN CHOICE). -/
def Claim.AcceptedListsActOnce : Prop :=
  ∀ (s : State) (p : Processing) (pairs : List (Byte × Byte)) (code : Byte) (params : List Byte),
    (∀ pair ∈ pairs, ∃ n, settingOfId pair.1 = some n ∧ settingInRange n pair.2 = true) →
    s.offers p (.settingWrite pairs) code params →
      let names := fun (n : Setting) => pairs.any fun pair => settingOfId pair.1 == some n
      let runs := s.node.state = .online ∨ s.node.state = .standalone
      ∃ st : Vector Byte 24,
        (∀ n, byteAt st (settingId n) =
          ((pairs.reverse.find? fun pair => settingOfId pair.1 == some n).map Prod.snd).getD (s.setting n)) ∧
        exec (.settingWrite pairs) s = .next
          (((((s.withSettings st).withDrive
            { s.drive with
              blinkA := if names .blinkAOn ∨ names .blinkAOff then { s.drive.blinkA with restart := true }
                else s.drive.blinkA
              blinkB := if names .blinkBOn ∨ names .blinkBOff then { s.drive.blinkB with restart := true }
                else s.drive.blinkB }).withLight
            (if names .lightMode ∨ names .lightWindow then
              { s.light with
                state := if runs ∧ byteAt st (settingId .lightMode) = 1 then .edgeWait
                  else if runs ∧ byteAt st (settingId .lightMode) = 2 then .windowWait else .stopped
                count := 0
                windowSweeps := 0 }
              else s.light)).withNode
            (if names .lossTimeout ∧ s.node.state = .online then { s.node with silence := 0 } else s.node)).answered
              p code params .ok [])

/-- SETTING_WRITE, refused and accepted. -/
def Obligations.SettingWritesStoreAllOrNone : Prop :=
  Claim.SettingWriteRefusesTheWholeList ∧
    Claim.SettingWriteStoresEveryValue ∧
    Claim.SettingWritesActInTheirOwners ∧
    Claim.AcceptedListsActOnce

/-- R165. -/
def Claim.SetTimeWritesTheCounter : Prop :=
  ∀ (s : State) (p : Processing) (time : Half) (code : Byte) (params : List Byte),
    s.offers p (.setTime time) code params →
      exec (.setTime time) s = .next ((s.withNode { s.node with time := time }).answered p code params .ok [])

/-- R154, R118, R145: QUIESCE parks an ONLINE node, and changes nothing in QUIESCENT. That the count and the window sweeps
hold 0 in STOPPED is the model's choice (assumption 26, DESIGN CHOICE). -/
def Claim.QuiesceParksTheNode : Prop :=
  ∀ (s : State) (p : Processing) (code : Byte) (params : List Byte), s.offers p .quiesce code params →
    (s.node.state = .online → exec .quiesce s = .next
      ((((s.withNode { s.node with state := .quiescent, silence := 0 }).withTone none).withLight
        { s.light with state := .stopped, count := 0, windowSweeps := 0 }).answered p code params .ok [])) ∧
    (s.node.state = .quiescent → exec .quiesce s = .next (s.answered p code params .ok []))

/-- R155, R118: RESUME brings a QUIESCENT node back, and changes nothing in ONLINE (what the count and the window sweeps hold
where they have no meaning: assumption 26, DESIGN CHOICE). -/
def Claim.ResumeBringsTheNodeBack : Prop :=
  ∀ (s : State) (p : Processing) (code : Byte) (params : List Byte), s.offers p .resume code params →
    (s.node.state = .quiescent → exec .resume s = .next
      (((s.withNode { s.node with state := .online, silence := 0 }).withLight
        (if s.setting .lightMode = 0 then s.light.stop else s.light.start (s.setting .lightMode))).answered p code
          params .ok [])) ∧
    (s.node.state = .online → exec .resume s = .next (s.answered p code params .ok []))

/-- SET_TIME, QUIESCE and RESUME. -/
def Obligations.NodeRequestsTakeEffect : Prop := Claim.SetTimeWritesTheCounter ∧ Claim.QuiesceParksTheNode ∧ Claim.ResumeBringsTheNodeBack

/-- R192: NODE_RESET is answered, sets RESET_STOP, ends the processing, and is due when its scope is valid. -/
def Obligations.NodeResetIsMadeDue : Prop :=
  ∀ (s : State) (p : Processing) (scope code : Byte) (params : List Byte), s.offers p (.nodeReset scope) code params →
    let closed := fun (status : Byte) =>
      (s.writeReply p [code, status, 0]).closeReply
        { p.past params 3 with resetStop := true }
    (scope = 1 → exec (.nodeReset scope) s = .next ((closed 0).withEngine (.due p.slot .display))) ∧
    (scope = 2 → exec (.nodeReset scope) s = .next ((closed 0).withEngine (.due p.slot .events))) ∧
    (scope = 3 → exec (.nodeReset scope) s = .next ((closed 0).withEngine (.due p.slot .full))) ∧
    (scope = 0 ∨ 4 ≤ scope.toNat → exec (.nodeReset scope) s = .next
      (((closed 2).readyGood p.slot).withEngine .idle))

/-- R22, R46, R114, R157, R192, R196: the effect of the scopes DISPLAY and EVENTS, after which the frame is readied. The
display group is the settings with ids 0 to 9 (PHASES to FALLBACK), the event group those with ids 18 to 20 (GATHER_QUOTA,
RESEND_AFTER, EVENT_MASK). -/
def Claim.PartialResetsTakeEffect : Prop :=
  ∀ (s : State) (id : SlotId),
    (s.engine = .due id .display → exec .resetEffect s = .next
      ((State.readyGood
        { s with
          cells := CellStore.reset
          settings := resetGroup settingInDisplayGroup s.settings
          drive :=
            { s.drive with
              blinkA := { s.drive.blinkA with restart := true }
              blinkB := { s.drive.blinkB with restart := true } }
          node := { s.node with fallbackHold := false } } id).withEngine .idle)) ∧
    (s.engine = .due id .events → exec .resetEffect s = .next
      ((State.readyGood
        { s with
          queue := EventQueue.reset
          settings := resetGroup settingInEventGroup s.settings } id).withEngine .idle)) ∧
    (∀ i, byteAt (resetGroup settingInDisplayGroup s.settings) i =
      if i < 10 then [4, 125, 0, 0, 8, 125, 125, 31, 31, 1].getD i 0 else byteAt s.settings i) ∧
    ∀ i, byteAt (resetGroup settingInEventGroup s.settings) i =
      if i = 18 then 4 else if i = 19 then 3 else if i = 20 then 0 else byteAt s.settings i

/-- R196, R198: the default of each setting, by its id. -/
def Claim.DefaultSettingsAreTheTables : Prop :=
  defaultSettings.toList =
    [4, 125, 0, 0, 8, 125, 125, 31, 31, 1, 0, 3, 3, 50, 10, 0, 50, 255, 4, 3, 0, 0, 8, 255]

/-- R22, R46, R68, R92, R114, R130, R145, R157, R178, R196: the effect of scope FULL, which keeps the address, the phase
and sweep counters, the level in use, the inputs of the sweep in progress and the frames in the slots. -/
def Claim.FullResetTakesEffect : Prop :=
  ∀ (s : State) (id : SlotId), s.engine = .due id .full → exec .resetEffect s = .next
    ((State.readyGood
      { s with
        cells := CellStore.reset
        settings := defaultSettings
        tables := TableStore.reset
        scanner := Scanner.reset
        queue := EventQueue.reset
        light := LightUnit.reset
        tone := none
        drive :=
          { s.drive with
            blinkA := { s.drive.blinkA with restart := true }
            blinkB := { s.drive.blinkB with restart := true } }
        node := { s.node with state := .online, time := 0, silence := 0, fallbackHold := false }
        relay := { s.relay with errors := 0 } } id).withEngine .idle)

/-- RESET_EFFECT for each scope. -/
def Obligations.DueResetsTakeEffect : Prop :=
  Claim.PartialResetsTakeEffect ∧
    Claim.FullResetTakesEffect ∧
    Claim.DefaultSettingsAreTheTables

/-! ## Cell Store -/

/-- R10: the checks of one record, in their order, and the record they let through. -/
def Obligations.RecordsAreCheckedInOrder : Prop :=
  ∀ (target : Nat) (code attr lead : Byte), (RecordBytes.mk code attr lead).plain = true →
    let render := attr.toNat % 4
    let blink := attr.toNat / 4 % 4
    let present := 128 ≤ lead.toNat
    (render = 3 ∨ blink = 3 → recordFor target ⟨code, attr, lead⟩ = .error .badRange) ∧
    (render ≠ 3 → blink ≠ 3 → render ≠ 0 → 64 ≤ code.toNat →
      recordFor target ⟨code, attr, lead⟩ = .error .badCode) ∧
    (render ≠ 3 → blink ≠ 3 → render = 0 ∨ code.toNat < 64 → present → target ≤ lead.toNat - 128 →
      recordFor target ⟨code, attr, lead⟩ = .error .badLink) ∧
    (render ≠ 3 → blink ≠ 3 → render = 0 ∨ code.toNat < 64 → ¬present ∨ lead.toNat - 128 < target →
      ∃ r, recordFor target ⟨code, attr, lead⟩ = .ok r ∧ recordBytes r = [code, attr, lead])

/-- R9, R11: WRITE_CELLS writes every record to its cell, or none, with the failure address. -/
def Claim.WriteCellsWritesAllOrNone : Prop :=
  ∀ (s : State) (p : Processing) (first code : Byte) (bytes params : List Byte),
    s.offers p (.writeCells first bytes) code params →
    (recordsOf bytes = none ∨ 127 < first.toNat ∨ bytes = [] ∨ 64 * 3 < bytes.length ∨
        127 < first.toNat + bytes.length / 3 - 1 →
      exec (.writeCells first bytes) s = .next (s.answered p code params .badRange [first])) ∧
    (∀ records, recordsOf bytes = some records → 1 ≤ records.length → records.length ≤ 64 →
      first.toNat + records.length ≤ 128 →
      (∀ i r status, records[i]? = some r → recordFor (first.toNat + i) r = .error status →
        (∀ j r', j < i → records[j]? = some r' → ∃ c, recordFor (first.toNat + j) r' = .ok c) →
        exec (.writeCells first bytes) s = .next
          (s.answered p code params status [BitVec.ofNat 8 (first.toNat + i)])) ∧
      ((∀ (i : Nat) (r : RecordBytes), records[i]? = some r → ∃ c, recordFor (first.toNat + i) r = .ok c) →
        ∃ draft : Plane,
          exec (.writeCells first bytes) s = .next
            ((s.withCells { s.cells with draft := draft }).answered p code params .ok []) ∧
          (∀ (a : Fin 128) (i : Nat) (r : RecordBytes), records[i]? = some r → a.val = first.toNat + i →
            recordFor a.val r = .ok draft[a]) ∧
          ∀ a : Fin 128, a.val < first.toNat ∨ first.toNat + records.length ≤ a.val → draft[a] = s.cells.draft[a]))

/-- R9, R12: FILL_CELLS writes one record to its spaced cells, or none, with first as the failure address. -/
def Claim.FillCellsWritesAllOrNone : Prop :=
  ∀ (s : State) (p : Processing) (first count stride code : Byte) (record : RecordBytes) (params : List Byte),
    s.offers p (.fillCells first count stride record) code params →
    let inRange := first.toNat ≤ 127 ∧ 1 ≤ count.toNat ∧ count.toNat ≤ 128 ∧ 1 ≤ stride.toNat ∧ stride.toNat ≤ 8 ∧
      first.toNat + (count.toNat - 1) * stride.toNat ≤ 127
    (¬inRange → exec (.fillCells first count stride record) s = .next
      (s.answered p code params .badRange [first])) ∧
    (∀ status, inRange → recordFor first.toNat record = .error status →
      exec (.fillCells first count stride record) s = .next (s.answered p code params status [first])) ∧
    ∀ written, inRange → recordFor first.toNat record = .ok written →
      ∃ draft : Plane,
        exec (.fillCells first count stride record) s = .next
          ((s.withCells { s.cells with draft := draft }).answered p code params .ok []) ∧
        ∀ a : Fin 128,
          ((∃ i < count.toNat, a.val = first.toNat + i * stride.toNat) → draft[a] = written) ∧
          ((∀ i < count.toNat, a.val ≠ first.toNat + i * stride.toNat) → draft[a] = s.cells.draft[a])

/-- WRITE_CELLS and FILL_CELLS. -/
def Obligations.CellWritesAreAllOrNone : Prop := Claim.WriteCellsWritesAllOrNone ∧ Claim.FillCellsWritesAllOrNone

/-- R14, R15: READ_CELLS returns records or patterns of one plane, and refuses in its order. -/
def Obligations.ReadCellsReadsOnePlane : Prop :=
  ∀ (s : State) (p : Processing) (plane first count option code : Byte) (params : List Byte),
    s.offers p (.readCells plane first count option) code params →
    let inRange := plane.toNat ≤ 2 ∧ option.toNat ≤ 1 ∧ 1 ≤ count.toNat ∧ count.toNat ≤ 64 ∧
      first.toNat + count.toNat ≤ 128
    (¬inRange → exec (.readCells plane first count option) s = .next (s.answered p code params .badRange [])) ∧
    (inRange → plane = 1 → s.cells.pendingValid = false →
      exec (.readCells plane first count option) s = .next (s.answered p code params .badState [])) ∧
    ∀ read : Plane, inRange → (plane = 0 → read = s.cells.draft) → (plane = 2 → read = s.cells.shown) →
      (plane = 1 → s.cells.pendingValid = true ∧ read = s.cells.pendingPlane) →
      ∃ data : List Byte,
        exec (.readCells plane first count option) s = .next (s.answered p code params .ok data) ∧
        (option = 0 → data.length = 3 * count.toNat) ∧ (option = 1 → data.length = count.toNat) ∧
        ∀ (a : Fin 128) (i : Nat), i < count.toNat → a.val = first.toNat + i →
          (option = 0 → (data.drop (3 * i)).take 3 = recordBytes read[a]) ∧
          (option = 1 → data[i]? = some (patternOf read s.tables.glyph.active a))

/-- R16, R17. -/
def Obligations.CommitFillsThePendingPlane : Prop :=
  ∀ (s : State) (p : Processing) (tag code : Byte) (params : List Byte), s.offers p (.commit tag) code params →
    exec (.commit tag) s = .next
      ((s.withCells { s.cells with pendingPlane := s.cells.draft, pendingTag := tag, pendingValid := true }).answered
        p code params .ok (if s.cells.pendingValid then [1, s.cells.pendingTag] else [0, 0]))

/-- R7: the table of the suppression test, in a plane whose leads point lower (R2). -/
def Claim.SuppressionFollowsTheLeads : Prop :=
  ∀ (plane : Plane) (a : Fin 128), planeSound plane →
    (plane[a].render ≠ .suppress → suppressed plane 128 a = false) ∧
    (plane[a].render = .suppress → plane[a].code ≠ 0 → suppressed plane 128 a = false) ∧
    (plane[a].render = .suppress → plane[a].code = 0 → plane[a].lead = none → suppressed plane 128 a = true) ∧
    ∀ lead, plane[a].render = .suppress → plane[a].code = 0 → plane[a].lead = some lead →
      suppressed plane 128 a = suppressed plane 128 lead

/-- R6, R8: the lines of a pattern in each mode; the glyph is the entry whose index is the code. -/
def Claim.PatternsAreFormedByMode : Prop :=
  ∀ (plane : Plane) (glyphs : Vector Byte 64) (a : Fin 128) (n : Nat), n < 8 →
    let lit := (patternOf plane glyphs a).getLsbD n
    let glyph := (byteAt glyphs plane[a].code.toNat).getLsbD n
    let mark := n = 7 ∧ plane[a].mark = true
    (plane[a].render = .raw → lit = plane[a].code.getLsbD n) ∧
    (plane[a].render = .glyph ∨ (plane[a].render = .suppress ∧ suppressed plane 128 a = false) →
      (lit = true ↔ mark ∨ glyph = true)) ∧
    (plane[a].render = .suppress → suppressed plane 128 a = true → (lit = true ↔ mark))

/-- Suppression and patterns. -/
def Obligations.PatternsAreFormed : Prop := Claim.SuppressionFollowsTheLeads ∧ Claim.PatternsAreFormedByMode

/-- R2, R1: in every plane every lead names a lower cell, and every GLYPH or SUPPRESS code is 0..63. -/
def Claim.LeadsStayLower : Prop := ∀ s t : State, s.cellsSound → step s = .next t → t.cellsSound

/-! ## Table Store -/

/-- R51: TABLE_LOAD writes whole entries to staging alone, or nothing. -/
def Claim.TableLoadWritesStaging : Prop :=
  ∀ (s : State) (p : Processing) (id : Byte) (first : Half) (entries : List Byte) (code : Byte)
    (params : List Byte), s.offers p (.tableLoad id first entries) code params →
    (7 ≤ id.toNat → exec (.tableLoad id first entries) s = .next (s.answered p code params .badRange [])) ∧
    ∀ table, tableOfByte id = some table →
      let size := tableEntryBytes table
      (inSet s.tables.pendingSet table = true →
        exec (.tableLoad id first entries) s = .next (s.answered p code params .busy [])) ∧
      (inSet s.tables.pendingSet table = false →
        entries = [] ∨ entries.length % size ≠ 0 ∨ tableEntries table < first.toNat + entries.length / size →
        exec (.tableLoad id first entries) s = .next (s.answered p code params .badRange [])) ∧
      (inSet s.tables.pendingSet table = false → entries ≠ [] → entries.length % size = 0 →
        first.toNat + entries.length / size ≤ tableEntries table →
        ∃ tables : TableStore,
          exec (.tableLoad id first entries) s = .next ((s.withTables tables).answered p code params .ok []) ∧
          tables.pendingSet = s.tables.pendingSet ∧
          (∀ other, tables.bytes true other = s.tables.bytes true other ∧
            tables.generation other = s.tables.generation other) ∧
          (∀ other, other ≠ table → tables.bytes false other = s.tables.bytes false other) ∧
          tables.bytes false table = (s.tables.bytes false table).take (first.toNat * size) ++ entries ++
            (s.tables.bytes false table).drop (first.toNat * size + entries.length))

/-- R53: TABLE_READ returns the generation and whole entries of one copy. -/
def Obligations.TableReadReturnsOneCopy : Prop :=
  ∀ (s : State) (p : Processing) (id copy : Byte) (first : Half) (count code : Byte) (params : List Byte),
    s.offers p (.tableRead id copy first count) code params →
    (7 ≤ id.toNat → exec (.tableRead id copy first count) s = .next (s.answered p code params .badRange [])) ∧
    ∀ table, tableOfByte id = some table →
      let size := tableEntryBytes table
      let inRange := copy.toNat ≤ 1 ∧ 1 ≤ count.toNat ∧ first.toNat + count.toNat ≤ tableEntries table ∧
        count.toNat * size ≤ 240
      (¬inRange → exec (.tableRead id copy first count) s = .next (s.answered p code params .badRange [])) ∧
      (inRange → exec (.tableRead id copy first count) s = .next
        (s.answered p code params .ok (s.tables.generation table ::
          ((s.tables.bytes (copy == 1) table).drop (first.toNat * size)).take (count.toNat * size))))

/-- R55, R56: TABLE_ACTIVATE makes every named table pending, or changes nothing and names the first failure. -/
def Obligations.TableActivateMakesPending : Prop :=
  ∀ (s : State) (p : Processing) (set : BitVec 7) (code : Byte) (params : List Byte),
    s.offers p (.tableActivate set) code params →
    (set = 0 → exec (.tableActivate set) s = .next (s.answered p code params .badRange [])) ∧
    (∀ table, inSet set table = true → inSet s.tables.pendingSet table = true →
      (∀ other, tableId other < tableId table → ¬(inSet set other = true ∧ inSet s.tables.pendingSet other = true)) →
      exec (.tableActivate set) s = .next (s.answered p code params .busy [BitVec.ofNat 8 (tableId table)])) ∧
    (set &&& s.tables.pendingSet = 0 → ∀ table entry, inSet set table = true → entry < tableEntries table →
      s.tables.entryFails false table entry = true →
      (∀ i < entry, s.tables.entryFails false table i = false) →
      (∀ other, inSet set other = true → tableId other < tableId table → s.tables.passes false other) →
      exec (.tableActivate set) s = .next
        (s.answered p code params .badTable
          [BitVec.ofNat 8 (tableId table), BitVec.ofNat 8 (entry / 256), BitVec.ofNat 8 entry])) ∧
    (set ≠ 0 → set &&& s.tables.pendingSet = 0 → (∀ table, inSet set table = true → s.tables.passes false table) →
      exec (.tableActivate set) s = .next
        ((s.withTables { s.tables with pendingSet := s.tables.pendingSet ||| set }).answered p code params .ok []))

/-- R54: TABLE_ABANDON returns the named staging copies to their active content, or changes nothing. -/
def Claim.TableAbandonRestoresStaging : Prop :=
  ∀ (s : State) (p : Processing) (set : BitVec 7) (code : Byte) (params : List Byte),
    s.offers p (.tableAbandon set) code params →
    (set = 0 → exec (.tableAbandon set) s = .next (s.answered p code params .badRange [])) ∧
    (∀ table, inSet set table = true → inSet s.tables.pendingSet table = true →
      (∀ other, tableId other < tableId table → ¬(inSet set other = true ∧ inSet s.tables.pendingSet other = true)) →
      exec (.tableAbandon set) s = .next (s.answered p code params .busy [BitVec.ofNat 8 (tableId table)])) ∧
    (set ≠ 0 → set &&& s.tables.pendingSet = 0 →
      ∃ tables : TableStore,
        exec (.tableAbandon set) s = .next ((s.withTables tables).answered p code params .ok []) ∧
        tables.pendingSet = s.tables.pendingSet ∧
        ∀ table, tables.bytes true table = s.tables.bytes true table ∧
          tables.generation table = s.tables.generation table ∧
          tables.bytes false table = s.tables.bytes (inSet set table) table)

/-- TABLE_LOAD and TABLE_ABANDON. -/
def Obligations.StagingIsLoadedAndAbandoned : Prop := Claim.TableLoadWritesStaging ∧ Claim.TableAbandonRestoresStaging

/-- R57 to R61: what it takes for a copy to pass, table by table. -/
def Claim.CopiesPassByTheirTable : Prop :=
  ∀ (t : TableStore) (active : Bool),
    t.passes active .glyph ∧
    (t.passes active .dim ↔ ∀ i < 16, (byteAt (t.dim.copy active) i).toNat ≤ 56 ∧
      (1 ≤ i → (byteAt (t.dim.copy active) (i - 1)).toNat ≤ (byteAt (t.dim.copy active) i).toNat)) ∧
    (t.passes active .keymap ↔ ∀ k < 128, (keymapCode (t.keymap.copy active) k).toNat ≤ 127) ∧
    (t.passes active .route ↔ ∀ line phase, 1 ≤ line → line ≤ 48 → 1 ≤ phase → phase ≤ 8 →
      let e := routeEntry (t.route.copy active) (routeIndex line phase)
      e.kind ≠ 3 ∧ (e.static = true → phase = 1 ∧ 17 ≤ line ∧ ∀ other, 2 ≤ other → other ≤ 8 →
        (routeEntry (t.route.copy active) (routeIndex line other)).kind = 0)) ∧
    (t.passes active .scan ↔
      let v := t.scan.copy active
      1 ≤ scanStepCount v ∧ scanStepCount v ≤ 16 ∧ ∀ j, 1 ≤ j → j ≤ scanStepCount v →
        scanColumns v j ≠ 0 ∧ ∀ i, 1 ≤ i → i < j → scanColumns v i &&& scanColumns v j = 0) ∧
    (t.passes active .light ↔
      let v := t.light.copy active
      lightThresholds v ≤ 15 ∧ ∀ j, 2 ≤ j → j ≤ lightThresholds v → lightThreshold v (j - 1) < lightThreshold v j) ∧
    (t.passes active .tone ↔ ∀ q < 8,
      let v := toneCopy (t.tone.copy active) q
      25 ≤ patternHalfPeriod v ∧ patternHalfPeriod v ≤ 2000 ∧ 1 ≤ patternSegments v ∧ patternSegments v ≤ 8 ∧
        ∀ j, 1 ≤ j → j ≤ patternSegments v → 1 ≤ patternDuration v j)

/-- R56 to R61: the entry that is charged with a failure, table by table: a static line's phase-1 entry for a line whose
other entries are not all UNROUTED, the later of two steps that share a column, the later of two thresholds out of order. -/
def Claim.FailuresAreChargedToTheirEntry : Prop :=
  ∀ (t : TableStore) (active : Bool),
    let fails := fun table i => t.entryFails active table i = true
    let scan := t.scan.copy active
    let light := t.light.copy active
    (∀ i, ¬fails .glyph i) ∧
    (∀ i < 16, fails .dim i ↔ 56 < (byteAt (t.dim.copy active) i).toNat ∨
      (1 ≤ i ∧ (byteAt (t.dim.copy active) i).toNat < (byteAt (t.dim.copy active) (i - 1)).toNat)) ∧
    (∀ k < 128, fails .keymap k ↔ 127 < (keymapCode (t.keymap.copy active) k).toNat) ∧
    (∀ line phase, 1 ≤ line → line ≤ 48 → 1 ≤ phase → phase ≤ 8 →
      let e := routeEntry (t.route.copy active) (routeIndex line phase)
      fails .route (routeIndex line phase) ↔
        e.kind = 3 ∨ (e.static = true ∧ ¬(phase = 1 ∧ 17 ≤ line)) ∨
          (e.static = true ∧ phase = 1 ∧ ∃ other, 2 ≤ other ∧ other ≤ 8 ∧
            (routeEntry (t.route.copy active) (routeIndex line other)).kind ≠ 0)) ∧
    (fails .scan 0 ↔ ¬(1 ≤ scanStepCount scan ∧ scanStepCount scan ≤ 16)) ∧
    (∀ j, 1 ≤ j → j ≤ 16 → (fails .scan j ↔ j ≤ scanStepCount scan ∧
      (scanColumns scan j = 0 ∨ ∃ i, 1 ≤ i ∧ i < j ∧ scanColumns scan i &&& scanColumns scan j ≠ 0))) ∧
    (fails .light 0 ↔ 15 < lightThresholds light) ∧ ¬fails .light 1 ∧ ¬fails .light 2 ∧
    (∀ j, 2 ≤ j → j ≤ 15 → (fails .light (j + 1) ↔
      j ≤ lightThresholds light ∧ lightThreshold light j ≤ lightThreshold light (j - 1))) ∧
    (∀ q < 8,
      let v := toneCopy (t.tone.copy active) q
      fails .tone q ↔ ¬(25 ≤ patternHalfPeriod v ∧ patternHalfPeriod v ≤ 2000) ∨
        ¬(1 ≤ patternSegments v ∧ patternSegments v ≤ 8) ∨
        ∃ j, 1 ≤ j ∧ j ≤ patternSegments v ∧ patternDuration v j = 0)

/-- Which copies pass, and which entry fails. -/
def Obligations.ValidCopiesAreTheLegalOnes : Prop := Claim.CopiesPassByTheirTable ∧ Claim.FailuresAreChargedToTheirEntry

/-- R50: every active copy satisfies its validation, whatever step is taken. -/
def Claim.ActiveTablesStayValid : Prop := ∀ s t : State, s.tablesSound → step s = .next t → t.tablesSound

/-- R196: every stored setting lies in its range. -/
def Claim.SettingsStayInRange : Prop := ∀ s t : State, s.settingsSound → step s = .next t → t.settingsSound

/-- What every step keeps of the planes, the tables and the settings. -/
def Obligations.StoredContentsStayLegal : Prop := Claim.LeadsStayLower ∧ Claim.ActiveTablesStayValid ∧ Claim.SettingsStayInRange

/-! ## Event Queue -/

/-- R100, R101, R104: a submission is appended, dropped and counted in the first way that applies, or discarded. -/
def Obligations.SubmissionsAreAppendedOrCounted : Prop :=
  ∀ (s : State) (kind : EventKind) (argument : Byte),
    let q := s.queue
    let room := q.entries.countP Entry.ordinary < 31 ∧ q.entries.length < 32
    (s.node.state = .unaddressed → s.submit kind argument = s) ∧
    (s.node.state ≠ .unaddressed → room → s.submit kind argument = s.withQueue
      { q with
        entries := q.entries ++ [⟨q.nextSeq, kind, argument, s.node.time, .unsent⟩]
        nextSeq := q.nextSeq + 1 }) ∧
    (∀ (before : List Entry) (tail : Entry), s.node.state ≠ .unaddressed → ¬room →
      q.entries = before ++ [tail] → tail.kind = .lost → tail.delivery = .unsent →
      s.submit kind argument = s.withQueue
        { q with entries := before ++ [{ tail with argument := BitVec.ofNat 8 (min 255 (tail.argument.toNat + 1)) }] }) ∧
    (s.node.state ≠ .unaddressed → ¬room →
      (∀ tail, q.entries.getLast? = some tail → tail.kind ≠ .lost ∨ tail.delivery ≠ .unsent) →
      (q.entries.length < 32 → s.submit kind argument = s.withQueue
        { q with
          entries := q.entries ++ [⟨q.nextSeq, .lost, 1, s.node.time, .unsent⟩]
          nextSeq := q.nextSeq + 1 }) ∧
      (32 ≤ q.entries.length → s.submit kind argument = s.withQueue
        { q with pendingLoss := min 255 (q.pendingLoss + 1) }))

/-- R96 to R100: the queue's order, its bounds, SENT before UNSENT, and pending-loss 0 while there is a place. -/
def Obligations.QueueOrderIsKept : Prop := ∀ s t : State, s.queue.ordered → step s = .next t → t.queue.ordered

/-- R104: the queue is empty whenever the node is UNADDRESSED. -/
def Claim.QueueStaysEmptyUnaddressed : Prop :=
  ∀ s t : State, s.nodeSound → s.queueEmptyUnaddressed → step s = .next t → t.queueEmptyUnaddressed

/-- R110, R111: an acknowledgment of a SENT entry removes the entries through it and turns pending-loss into a LOST
entry; any other seq is answered BAD_ACK. -/
def Claim.AckRemovesThroughTheSentEntry : Prop :=
  ∀ (s : State) (p : Processing) (seq code : Byte) (params : List Byte), s.offers p (.ackEvents seq) code params →
    (∀ (through : List Entry) (e : Entry) (rest : List Entry), s.queue.entries = through ++ e :: rest →
      e.seq = seq → e.isSent = true → (∀ other ∈ through, other.seq ≠ seq) →
      (s.queue.pendingLoss = 0 → exec (.ackEvents seq) s = .next
        ((s.withQueue { s.queue with entries := rest }).answered p code params .ok
          [BitVec.ofNat 8 (through.length + 1), BitVec.ofNat 8 rest.length])) ∧
      (s.queue.pendingLoss ≠ 0 → exec (.ackEvents seq) s = .next
        ((s.withQueue
          { entries := rest ++
              [⟨s.queue.nextSeq, .lost, BitVec.ofNat 8 s.queue.pendingLoss, s.node.time, .unsent⟩]
            nextSeq := s.queue.nextSeq + 1
            pendingLoss := 0 }).answered p code params .ok
              [BitVec.ofNat 8 (through.length + 1), BitVec.ofNat 8 (rest.length + 1)]))) ∧
    (∀ (before : List Entry) (e : Entry) (rest : List Entry), s.queue.entries = before ++ e :: rest →
      e.seq = seq → e.isSent = false → (∀ other ∈ before, other.seq ≠ seq) →
      exec (.ackEvents seq) s = .next (s.answered p code params .badAck [])) ∧
    ((∀ e ∈ s.queue.entries, e.seq ≠ seq) →
      exec (.ackEvents seq) s = .next (s.answered p code params .badAck []))

/-- R107: a pass whose aging brings the SENT head to RESEND_AFTER makes every entry UNSENT; seqs, kinds, arguments,
times and order stay. That GO_BACK taken alone ages first is the model's reading (assumption 28, DEDUCED). -/
def Claim.GoBackUnsendsEveryEntry : Prop :=
  ∀ (s : State) (head : Entry) (rest : List Entry) (age : Nat),
    s.node.state = .online ∨ s.node.state = .quiescent → s.queue.entries = head :: rest →
    head.delivery = .sent age → (s.setting .resendAfter).toNat ≤ min 15 (age + 1) →
      exec .goBack s = .next
        (s.withQueue { s.queue with entries := s.queue.entries.map fun e => { e with delivery := .unsent } })

/-- ACK_EVENTS and GO_BACK. -/
def Obligations.AcknowledgedEntriesLeaveOthersReturn : Prop := Claim.AckRemovesThroughTheSentEntry ∧ Claim.GoBackUnsendsEveryEntry

/-! ## Tone Unit -/

/-- R139: TONE_START in its two checks, and the play it starts from the active TONE table (R135). -/
def Claim.ToneStartClaimsTheChannel : Prop :=
  ∀ (s : State) (p : Processing) (pattern code : Byte) (params : List Byte),
    s.offers p (.toneStart pattern) code params →
    (8 ≤ pattern.toNat → exec (.toneStart pattern) s = .next (s.answered p code params .badRange [])) ∧
    (pattern.toNat ≤ 7 → s.node.state = .quiescent →
      exec (.toneStart pattern) s = .next (s.answered p code params .badState [])) ∧
    (pattern.toNat ≤ 7 → s.node.state ≠ .quiescent →
      exec (.toneStart pattern) s = .next
        ((s.withTone (some (newPlay .requested pattern s.tables.tone.active))).answered p code params .ok
          [if s.plays .requested then 1 else 0]))

/-- R140: TONE_STOP makes the channel IDLE and answers the state found. -/
def Claim.ToneStopAnswersTheStateFound : Prop :=
  ∀ (s : State) (p : Processing) (code : Byte) (params : List Byte), s.offers p .toneStop code params →
    (s.tone = none → exec .toneStop s = .next (s.answered p code params .ok [0])) ∧
    (∀ play, s.tone = some play → exec .toneStop s = .next
      ((s.withTone none).answered p code params .ok
        [match play.kind with | .requested => 1 | .alert => 2 | .click => 3]))

/-- R138: the claims of the keys and of Node Control, in the states the table reaches. -/
def Claim.ClaimsAreArbitrated : Prop :=
  ∀ (s : State) (number : Byte),
    let click := s.withTone (some (newPlay .click number s.tables.tone.active))
    let alert := s.withTone (some (newPlay .alert number s.tables.tone.active))
    (s.tone = none → s.claimClick number = click ∧ s.claimAlert number = alert ∧ s.claimSilence = s ∧
      s.claimLinkResumed = s) ∧
    ∀ play, s.tone = some play →
      (play.kind = .click → s.claimClick number = click ∧ s.claimAlert number = alert ∧ s.claimSilence = s ∧
        s.claimLinkResumed = s) ∧
      (play.kind = .requested → s.claimClick number = s ∧ s.claimAlert number = alert ∧
        s.claimSilence = s.withTone none ∧ s.claimLinkResumed = s) ∧
      (play.kind = .alert → s.claimClick number = s ∧ s.claimSilence = s.withTone none ∧
        s.claimLinkResumed = s.withTone none)

/-- R135, R136: a play begins from a copy of the 20 bytes of its TONE entry, at segment 1 with its time at 0, with the
copy's repeats left, and, when segment 1 is on, with TONE_P high and TONE_N low. That the carrier phase holds the same when
it is off is the model's choice (assumption 26, DESIGN CHOICE). -/
def Claim.PlaysBeginFromAFreshCopy : Prop :=
  ∀ (s : State) (kind : ToneKind) (number : Byte) (table : Vector Byte 160), number.toNat ≤ 7 →
    let play := newPlay kind number table
    let repeats := (byteAt table (20 * number.toNat + 3)).toNat
    let on := (byteAt table (20 * number.toNat + 4)).getLsbD 0
    let started := s.withTone (some play)
    play.kind = kind ∧ play.number = number ∧ (∀ i < 20, byteAt play.copy i = byteAt table (20 * number.toNat + i)) ∧
      play.segment = 1 ∧ play.segmentTime = 0 ∧ play.halfTime = 0 ∧
      play.repeatsLeft = (if repeats = 0 then none else some repeats) ∧ play.pHigh = true ∧
      (s.inReset = false → started.toneP = on ∧ started.toneN = false)

/-- TONE_START, TONE_STOP, the claims of R138, and the play that a claim starts. -/
def Obligations.ToneRequestsAndClaimsAreArbitrated : Prop :=
  Claim.PlaysBeginFromAFreshCopy ∧
    Claim.ToneStartClaimsTheChannel ∧
    Claim.ToneStopAnswersTheStateFound ∧
    Claim.ClaimsAreArbitrated

/-- R136: the end of a half-period of an on segment exchanges the outputs; an off segment and IDLE have none. -/
def Claim.HalfPeriodsExchangeTheOutputs : Prop :=
  ∀ (s : State) (play : Play), s.tone = some play → s.inReset = false →
    (patternOn play.copy play.segment = true →
      ∃ t, exec .halfPeriodEnd s = .next t ∧
        t = s.withTone (some { play with pHigh := !play.pHigh, halfTime := 0 }) ∧
        t.toneP = s.toneN ∧ t.toneN = s.toneP ∧ s.toneP = !s.toneN) ∧
    (patternOn play.copy play.segment = false →
      exec .halfPeriodEnd s = .next s ∧ s.toneP = false ∧ s.toneN = false)

/-- R136, R137: a segment that has lasted its duration × 10 ms ends: the next one begins, or the envelope ends by the repeats
left. Before that the event does not come about, and SEGMENT_END changes nothing (assumption 3). The carrier phase held in
an off segment is the model's choice (assumption 26, DESIGN CHOICE). -/
def Claim.SegmentsAndEnvelopesEnd : Prop :=
  ∀ (s : State) (play : Play), s.tone = some play →
    let length := patternDuration play.copy play.segment * 10
    let at_ := fun (segment : Nat) (left : Option Nat) =>
      s.withTone (some { play with
        segment := segment, segmentTime := 0, repeatsLeft := left, pHigh := true, halfTime := 0 })
    (play.segmentTime < length → exec .segmentEnd s = .next s) ∧
    (length ≤ play.segmentTime → play.segment < patternSegments play.copy →
      exec .segmentEnd s = .next (at_ (play.segment + 1) play.repeatsLeft)) ∧
    (length ≤ play.segmentTime → patternSegments play.copy ≤ play.segment →
      (play.repeatsLeft = none → exec .segmentEnd s = .next (at_ 1 none)) ∧
      (∀ n, 2 ≤ n → play.repeatsLeft = some n → exec .segmentEnd s = .next (at_ 1 (some (n - 1)))) ∧
      (play.repeatsLeft = some 1 → exec .segmentEnd s = .next (s.withTone none)))

/-- HALF_PERIOD_END and SEGMENT_END. -/
def Obligations.PlaysAdvanceBySegments : Prop := Claim.HalfPeriodsExchangeTheOutputs ∧ Claim.SegmentsAndEnvelopesEnd

/-- R140, R145: an ALERT plays in STANDALONE alone, and the channel is IDLE in QUIESCENT and UNADDRESSED. -/
def Claim.AlertsPlayInStandaloneAlone : Prop :=
  ∀ s t : State, s.nodeSound → s.alertSound → s.toneSilent → step s = .next t → t.alertSound ∧ t.toneSilent

/-! ## Light Sense Unit -/

/-- R125: clamp, raw level, rise and fall, for a table whose active thresholds ascend. -/
def Obligations.LevelsRiseAndFallWithHysteresis : Prop :=
  ∀ (v : Vector Byte 34) (level result : Nat), lightThresholds v ≤ 15 →
    (∀ i j, 1 ≤ i → i < j → j ≤ lightThresholds v → lightThreshold v i < lightThreshold v j) →
    let held := min level (lightThresholds v)
    let raw := rawLevel v result
    raw ≤ lightThresholds v ∧
    (∀ j, 1 ≤ j → j ≤ lightThresholds v → (j ≤ raw ↔ lightThreshold v j ≤ result)) ∧
    (held ≤ raw → formLevel v level result = raw) ∧
    (raw < held → result + lightHysteresis v < lightThreshold v held → formLevel v level result = raw) ∧
    (raw < held → lightThreshold v held ≤ result + lightHysteresis v → formLevel v level result = held)

/-- R119, R124, R128: an edge of LS in a PERIOD measurement, after microseconds that leave the count below 65535. That the
command carries the microseconds before the edge is the model's reading (assumption 6, DEDUCED). -/
def Claim.EdgesOpenAndClosePeriods : Prop :=
  ∀ (s : State) (us : Nat), s.light.count + us < 65535 →
    (s.light.state = .edgeWait → exec (.lsRisingEdge us) s = .next
      (s.withLight { s.light with state := .periodCount, count := 0 })) ∧
    (s.light.state = .periodCount →
      let result := s.light.count + us
      let level := formLevel s.tables.light.active s.light.level result
      let closed := s.withLight
        { s.light with state := .periodCount, count := 0, result := result, overflow := false, level := level }
      exec (.lsRisingEdge us) s = .next
        (if level ≠ s.light.level ∧ (s.setting .eventMask).getLsbD 0 = true
          then closed.submit .lightLevel (BitVec.ofNat 8 level) else closed))

/-- R121 and the table of R123: an edge in an open window advances its count, held at 65535, and an edge in STOPPED or
WINDOW_WAIT is ignored; the microseconds before it do not matter. -/
def Claim.EdgesAreCountedInWindows : Prop :=
  ∀ (s : State) (us : Nat),
    (s.light.state = .windowCount → exec (.lsRisingEdge us) s = .next
      (s.withLight { s.light with count := min 65535 (s.light.count + 1) })) ∧
    (s.light.state = .stopped ∨ s.light.state = .windowWait → exec (.lsRisingEdge us) s = .next s)

/-- R119, R120: an edge after microseconds that bring the count to 65535: the overflow completes on the way, and the edge
then opens a period (assumption 6, DEDUCED). -/
def Claim.EdgesAfterAnOverflowOpenPeriods : Prop :=
  ∀ (s : State) (us : Nat), s.light.state = .edgeWait ∨ s.light.state = .periodCount → 65535 ≤ s.light.count + us →
    ∃ t, exec .periodOverflow s = .next t ∧
      exec (.lsRisingEdge us) s = .next (t.withLight { t.light with state := .periodCount, count := 0 })

/-- R120: an overflow completes with 65535 and begins again in EDGE_WAIT. -/
def Claim.PeriodsOverflow : Prop :=
  ∀ s : State, s.light.state = .edgeWait ∨ s.light.state = .periodCount →
    let level := formLevel s.tables.light.active s.light.level 65535
    let overflowed := s.withLight
      { s.light with state := .edgeWait, count := 0, result := 65535, overflow := true, level := level }
    exec .periodOverflow s = .next
      (if level ≠ s.light.level ∧ (s.setting .eventMask).getLsbD 0 = true
        then overflowed.submit .lightLevel (BitVec.ofNat 8 level) else overflowed)

/-- R121, R122: a window whose sweeps reach LIGHT_WINDOW completes with its count, and the next one opens. The row taken
alone acts as at the coming sweep start (assumption 4, DEDUCED). -/
def Claim.WindowsCompleteAtTheirLength : Prop :=
  ∀ s : State, s.light.state = .windowCount → s.light.windowSweeps + 1 = (s.setting .lightWindow).toNat →
    let level := formLevel s.tables.light.active s.light.level s.light.count
    let done := s.withLight
      { state := .windowCount, count := 0, windowSweeps := 0, result := s.light.count
        overflow := s.light.count == 65535, level := level }
    exec .windowComplete s = .next
      (if level ≠ s.light.level ∧ (s.setting .eventMask).getLsbD 0 = true
        then done.submit .lightLevel (BitVec.ofNat 8 level) else done)

/-- R117, R118: the unit is STOPPED exactly while it does not run, and its values keep their ranges. -/
def Claim.LightRunsWithTheNodeState : Prop :=
  ∀ s t : State, s.nodeSound → s.settingsSound → s.tablesSound → s.lightSound → s.light.bounded →
    step s = .next t → t.lightSound ∧ t.light.bounded

/-- What the Tone Unit and the Light Sense Unit keep with the node state. -/
def Obligations.ToneAndLightFollowTheNode : Prop := Claim.AlertsPlayInStandaloneAlone ∧ Claim.LightRunsWithTheNodeState

/-! ## Multiplex Driver and the sweep start -/

/-- R18, R25, R62, R121: at the end of a sweep, what a sweep start changes outside the Multiplex Driver, the Key Scanner and
the Event Queue, and what it leaves. A late sample (assumption 8) may wake the node from WAKE and claim the tone channel from
FULL, as KEY_SAMPLE does; it changes nothing else here. -/
def Obligations.SweepStartTransfersAndActivates : Prop :=
  ∀ (s : State) (order : SubmitOrder) (late : Option LateSample), s.sweepEnds late →
    ∃ t, exec (.sweepStart ⟨order, late⟩) s = .next t ∧
      t.cells = (if s.cells.pendingValid then
        { s.cells with shown := s.cells.pendingPlane, shownTag := s.cells.pendingTag, pendingValid := false }
        else s.cells) ∧
      t.tables.pendingSet = 0 ∧
      (∀ table, t.tables.bytes false table = s.tables.bytes false table ∧
        t.tables.bytes true table = s.tables.bytes (!inSet s.tables.pendingSet table) table ∧
        t.tables.generation table =
          s.tables.generation table + (if inSet s.tables.pendingSet table then 1 else 0)) ∧
      (s.sampleTaken ∨ s.scanner.mode ≠ .wake →
        t.node = { s.node with fallbackHold := s.node.fallbackHold && !s.cells.pendingValid } ∧
        t.light = s.lightSweep.light) ∧
      (s.sampleTaken ∨ s.scanner.mode ≠ .full → t.tone = s.tone) ∧
      t.settings = s.settings ∧ t.relay = s.relay ∧ t.engine = s.engine ∧
      t.rstLow = s.rstLow ∧ t.supplyOk = s.supplyOk ∧ t.pending = s.pending

/-- R121: the Light Sense Unit at a sweep start. -/
def Claim.SweepStartsBoundTheWindows : Prop :=
  ∀ s : State,
    (s.light.state = .stopped ∨ s.light.state = .edgeWait ∨ s.light.state = .periodCount →
      s.lightSweep.light = s.light) ∧
    (s.light.state = .windowWait →
      s.lightSweep.light = { s.light with state := .windowCount, count := 0, windowSweeps := 0 }) ∧
    (s.light.state = .windowCount → s.light.windowSweeps + 1 ≠ (s.setting .lightWindow).toNat →
      s.lightSweep.light = { s.light with windowSweeps := s.light.windowSweeps + 1 }) ∧
    (s.light.state = .windowCount → s.light.windowSweeps + 1 = (s.setting .lightWindow).toNat →
      s.lightSweep.light =
        { state := .windowCount, count := 0, windowSweeps := 0, result := s.light.count
          overflow := s.light.count == 65535
          level := formLevel s.tables.light.active s.light.level s.light.count })

/-- LS_RISING_EDGE, PERIOD_OVERFLOW, WINDOW_COMPLETE, and the Light Sense Unit at a sweep start. -/
def Obligations.MeasurementsComplete : Prop :=
  Claim.EdgesOpenAndClosePeriods ∧
    Claim.EdgesAreCountedInWindows ∧
    Claim.EdgesAfterAnOverflowOpenPeriods ∧
    Claim.PeriodsOverflow ∧
    Claim.WindowsCompleteAtTheirLength ∧
    Claim.SweepStartsBoundTheWindows

/-- R25, R26, R33, R37, R38: the Multiplex Driver at a sweep start fixes its inputs after the changes made there. -/
def Claim.SweepInputsAreFixed : Prop :=
  ∀ (s t : State) (order : SubmitOrder) (late : Option LateSample), s.sweepEnds late →
    exec (.sweepStart ⟨order, late⟩) s = .next t →
    t.drive.sweepCounter = s.drive.sweepCounter + 1 ∧ t.drive.phase = 1 ∧
    t.drive.sweep.shown = t.cells.shown ∧ t.drive.sweep.glyph = t.tables.glyph.active ∧
    t.drive.sweep.route = t.tables.route.active ∧ t.drive.sweep.dim = t.tables.dim.active ∧
    t.drive.sweep.phases = s.setting .phases ∧ t.drive.sweep.phaseTime = s.setting .phaseTime ∧
    t.drive.sweep.display = s.setting .display ∧ t.drive.sweep.fallback = s.setting .fallback ∧
    t.drive.sweep.halfA = t.drive.blinkA.on ∧ t.drive.sweep.halfB = t.drive.blinkB.on ∧
    t.drive.level = (if s.setting .brightSource = 0 then (s.setting .brightLevel).toNat
      else if lightInvert t.tables.light.active then 15 - t.light.level else t.light.level) ∧
    t.drive.sweep.level = t.drive.level ∧
    t.drive.sweep.onTime = (byteAt t.tables.dim.active t.drive.level).toNat ∧
    t.drive.window = (if t.drive.sweep.onTime = 0 then .dark else .lit)

/-- R33: a generator at a sweep start: a waiting restart, a half that reaches its length, or no change. -/
def Claim.BlinkSweepsFollowTheLengths : Prop :=
  ∀ (s t : State) (order : SubmitOrder) (late : Option LateSample), s.sweepEnds late →
    exec (.sweepStart ⟨order, late⟩) s = .next t →
    let counter := s.drive.sweepCounter + 1
    let next := fun (g : Blink) (on off : Byte) =>
      if g.restart then (⟨true, counter, false⟩ : Blink)
      else if counter - g.start = (if g.on then on else off) then ⟨!g.on, counter, false⟩ else g
    t.drive.blinkA = next s.drive.blinkA (s.setting .blinkAOn) (s.setting .blinkAOff) ∧
    t.drive.blinkB = next s.drive.blinkB (s.setting .blinkBOn) (s.setting .blinkBOff)

/-- R33 step 2 as a happening of its own: the half changes and begins at the coming sweep, whose counter value is one more
than the present one (assumption 4, DEDUCED). -/
def Claim.BlinkHalvesChange : Prop :=
  ∀ s : State,
    (s.drive.blinkA.restart = false →
      s.drive.sweepCounter + 1 - s.drive.blinkA.start =
        (if s.drive.blinkA.on then s.setting .blinkAOn else s.setting .blinkAOff) →
      exec (.blinkHalfChange .a) s = .next (s.withDrive
        { s.drive with blinkA := ⟨!s.drive.blinkA.on, s.drive.sweepCounter + 1, false⟩ })) ∧
    (s.drive.blinkB.restart = false →
      s.drive.sweepCounter + 1 - s.drive.blinkB.start =
        (if s.drive.blinkB.on then s.setting .blinkBOn else s.setting .blinkBOff) →
      exec (.blinkHalfChange .b) s = .next (s.withDrive
        { s.drive with blinkB := ⟨!s.drive.blinkB.on, s.drive.sweepCounter + 1, false⟩ }))

/-- The blink generators, at a sweep start and in BLINK_HALF_CHANGE. -/
def Obligations.BlinkHalvesLastTheirLength : Prop := Claim.BlinkSweepsFollowTheLengths ∧ Claim.BlinkHalvesChange

/-- R39 to R41: the drive mode of the sweep that begins, the first row that holds, from the node state and fallback-hold
once the changes of the sweep start have been made. -/
def Claim.DriveModeIsTheFirstRow : Prop :=
  ∀ (s t : State) (order : SubmitOrder) (late : Option LateSample), s.sweepEnds late → s.settingsSound →
    exec (.sweepStart ⟨order, late⟩) s = .next t →
    let fallback := t.node.state = .standalone ∨ t.node.fallbackHold = true
    let shows := (t.node.state = .online ∨ t.node.state = .standalone) ∧ s.setting .display = 0
    (t.node.state = .unaddressed → t.drive.sweep.mode = .off) ∧
    (t.node.state = .quiescent → t.drive.sweep.mode = .quiet) ∧
    (t.node.state = .online ∨ t.node.state = .standalone → s.setting .display = 1 →
      t.drive.sweep.mode = .blank) ∧
    (shows → fallback → s.setting .fallback = 0 → t.drive.sweep.mode = .fallbackDark) ∧
    (shows → fallback → s.setting .fallback = 2 → t.drive.sweep.mode = .fallbackFlash) ∧
    (shows → ¬fallback ∨ s.setting .fallback = 1 → t.drive.sweep.mode = .normal)

/-- What the Multiplex Driver takes at a sweep start. -/
def Obligations.SweepStartFixesItsInputs : Prop := Claim.SweepInputsAreFixed ∧ Claim.DriveModeIsTheFirstRow

/-- R73 to R75: the Key Scanner at a sweep start whose last sample has been taken. -/
def Claim.ScanModeFollowsTheNode : Prop :=
  ∀ (s t : State) (order : SubmitOrder) (late : Option LateSample), s.sweepEnds late → s.sampleTaken →
    exec (.sweepStart ⟨order, late⟩) s = .next t →
    let scan := inSet s.tables.pendingSet .scan
    t.scanner.mode =
      (match s.node.state with
        | .unaddressed => .off
        | .quiescent => if s.setting .wakeByKey = 1 then .wake else .off
        | .online => if s.setting .scanMode = 1 then .full else .off
        | .standalone => if s.setting .scanMode = 1 then .full else .off) ∧
    (scan = false → t.scanner.mode = s.scanner.mode → t.scanner = s.scanner) ∧
    (t.scanner.mode ≠ s.scanner.mode →
      (s.scanner.mode = .full → t.scanner.keys = keysUp) ∧ (t.scanner.mode = .full → t.scanner.step = 1) ∧
      t.scanner.anyKey = (if t.scanner.mode = .wake then some ⟨true, 0⟩ else none)) ∧
    (scan = true → t.scanner.step = 1 ∧ (t.scanner.mode = s.scanner.mode → ∀ k : Fin 128,
      ((∃ j, 1 ≤ j ∧ j ≤ scanStepCount t.tables.scan.active ∧
          (scanColumns t.tables.scan.active j).getLsbD (k.val % 16) = true) →
        t.key k = ⟨{ (s.key k).debounce with count := 0 }, (s.key k).press⟩) ∧
      ((∀ j, 1 ≤ j → j ≤ scanStepCount t.tables.scan.active →
          (scanColumns t.tables.scan.active j).getLsbD (k.val % 16) = false) → t.key k = KeyRecord.up)))

/-- R71, R103: the sample of the sweep's last sense window taken in the sweep start leaves every block as KEY_SAMPLE before
the sweep start does, but for the order of the events: it is applied in the mode, schedule and step position in force when
it was read, before the Key Scanner's own changes. KEYMAP and TONE do not activate here, whose content a sample that
follows them takes; nor does a wake begin a WINDOW measurement after the Light Sense Unit's turn. In OFF, where R71 takes no sample, either way
the sense window ends and nothing is sampled (assumption 25, DESIGN CHOICE). -/
def Claim.LateSamplesChangeTheOrderAlone : Prop :=
  ∀ (s m u : State) (order : SubmitOrder) (late : LateSample), s.sweepEnds (some late) → s.drive.window = .sense →
    inSet s.tables.pendingSet .keymap = false → inSet s.tables.pendingSet .tone = false →
    (s.scanner.mode = .wake → s.lightSound ∧ s.setting .lightMode ≠ 2) →
    exec (.keySample late.returns) s = .next m → exec (.sweepStart ⟨order, none⟩) m = .next u →
      ∃ t, exec (.sweepStart ⟨order, some late⟩) s = .next t ∧ t = u.withQueue t.queue

/-- The Key Scanner at a sweep start, its last sample taken before it or in it. -/
def Obligations.SweepStartSetsTheScanMode : Prop := Claim.ScanModeFollowsTheNode ∧ Claim.LateSamplesChangeTheOrderAlone

/-- R19, R63, R103, R121, R128: what the blocks submit at the sweep start of `s`, in the order the sender gives: LIGHT_LEVEL
of a window that closes there with a changed level, COMMIT_SHOWN of a transfer, TABLES_ACTIVE of an activation, each when
EVENT_MASK includes it. -/
def Claim.submissions (s : State) (order : SubmitOrder) : List (State → State) :=
  let level := formLevel s.tables.light.active s.light.level s.light.count
  let light := fun (u : State) =>
    if s.light.state = .windowCount ∧ s.light.windowSweeps + 1 = (s.setting .lightWindow).toNat ∧
      level ≠ s.light.level ∧ (s.setting .eventMask).getLsbD 0 = true
    then u.submit .lightLevel (BitVec.ofNat 8 level) else u
  let shown := fun (u : State) =>
    if s.cells.pendingValid = true ∧ (s.setting .eventMask).getLsbD 1 = true
    then u.submit .commitShown s.cells.pendingTag else u
  let active := fun (u : State) =>
    if s.tables.pendingSet ≠ 0 ∧ (s.setting .eventMask).getLsbD 2 = true
    then u.submit .tablesActive (s.tables.pendingSet.setWidth 8) else u
  match order with
  | .lightCellsTables => [light, shown, active]
  | .lightTablesCells => [light, active, shown]
  | .cellsLightTables => [shown, light, active]
  | .cellsTablesLight => [shown, active, light]
  | .tablesLightCells => [active, light, shown]
  | .tablesCellsLight => [active, shown, light]

/-- R103: the events of a sweep start whose last sample has been taken, in the order the sender gives (assumption 8, DESIGN
CHOICE). -/
def Claim.BlocksSubmitInOrder : Prop :=
  ∀ (s t : State) (order : SubmitOrder) (late : Option LateSample), s.sweepEnds late → s.sampleTaken →
    exec (.sweepStart ⟨order, late⟩) s = .next t →
    t.queue = ((Claim.submissions s order).foldl (fun u submit => submit u) s).queue

/-- R71, R103: the events of a late sample stand at its place among the others, as the sender gives it (assumption 8, DESIGN
CHOICE); in OFF, where R71 takes no sample, there are none (assumption 25, DESIGN CHOICE). Here KEYMAP does not activate,
whose content a sample that follows it takes. -/
def Claim.LateSamplesTakeTheirTurn : Prop :=
  ∀ (s t : State) (order : SubmitOrder) (late : LateSample), s.sweepEnds (some late) → s.drive.window = .sense →
    inSet s.tables.pendingSet .keymap = false → (s.scanner.mode = .wake → s.lightSound) →
    exec (.sweepStart ⟨order, some late⟩) s = .next t →
    let turns := Claim.submissions s order
    ∃ m, exec (.keySample late.returns) ((turns.take (late.after.val + 1)).foldl (fun u submit => submit u) s) = .next m ∧
      t.queue = ((turns.drop (late.after.val + 1)).foldl (fun u submit => submit u) m).queue

/-- The events of a sweep start. -/
def Obligations.SweepStartSubmitsItsEvents : Prop := Claim.BlocksSubmitInOrder ∧ Claim.LateSamplesTakeTheirTurn

/-- R24, R25, R27, R28: the lit window, the dark window and the sense window of a phase come in this order, each once: no lit
window when the on-time is 0, and no dark window when it is 56. The next phase begins when the sense window has ended. That
LIT_WINDOW_END leads at once to the sense window when the on-time is 56, and SENSE_WINDOW_START does so too, is the model's
choice (assumption 25, DESIGN CHOICE). -/
def Claim.WindowsComeInOrder : Prop :=
  ∀ s : State, s.inReset = false →
    (s.drive.window = .ended → s.drive.phase < s.drive.sweep.phases.toNat → exec .phaseStart s = .next (s.withDrive
      { s.drive with
        phase := s.drive.phase + 1
        window := if s.drive.sweep.onTime = 0 then .dark else .lit })) ∧
    (s.drive.window = .lit → s.drive.sweep.onTime < 56 →
      exec .litWindowEnd s = .next (s.withDrive { s.drive with window := .dark })) ∧
    (s.drive.window = .lit → s.drive.sweep.onTime = 56 →
      exec .litWindowEnd s = .next (s.withDrive { s.drive with window := .sense })) ∧
    (s.drive.window = .dark ∨ (s.drive.window = .lit ∧ s.drive.sweep.onTime = 56) →
      exec .senseWindowStart s = .next (s.withDrive { s.drive with window := .sense }))

/-- R24, R25, R28: out of their order the starts and ends do not come about, and change nothing (assumption 3, DESIGN
CHOICE): no phase begins before the sense window of the last one has ended, no window begins twice, and no sweep begins
before the sense window of the last phase has come to its end. -/
def Claim.WindowsKeepTheirOrder : Prop :=
  ∀ s : State,
    (s.drive.window ≠ .ended ∨ s.drive.sweep.phases.toNat ≤ s.drive.phase → exec .phaseStart s = .next s) ∧
    (s.drive.window ≠ .lit → exec .litWindowEnd s = .next s) ∧
    (s.drive.window = .sense ∨ s.drive.window = .ended ∨ (s.drive.window = .lit ∧ s.drive.sweep.onTime < 56) →
      exec .senseWindowStart s = .next s) ∧
    ∀ (order : SubmitOrder) (late : Option LateSample), ¬s.sweepEnds late →
      exec (.sweepStart ⟨order, late⟩) s = .next s

/-- PHASE_START, LIT_WINDOW_END and SENSE_WINDOW_START, and when SWEEP_START comes. -/
def Obligations.PhasesAndWindowsFollow : Prop := Claim.WindowsComeInOrder ∧ Claim.WindowsKeepTheirOrder

/-- R24, R25, R57: every step keeps the phase within the sweep's PHASES and the on-time within 56, and no lit window comes
with on-time 0, no dark one with 56. -/
def Obligations.SweepsKeepTheirShape : Prop :=
  ∀ s t : State, s.settingsSound → s.tablesSound → s.sweepSound → step s = .next t → t.sweepSound

/-- R27: a common is active in its own phase's lit window alone, in a drive mode that runs commons; so two commons are
never active together. -/
def Claim.CommonsAreActiveAlone : Prop :=
  ∀ (s : State) (n : Nat), n < 8 →
    (s.commonLines.getLsbD n = true ↔
      s.inReset = false ∧ s.drive.window = .lit ∧ s.drive.phase = n + 1 ∧ n + 1 ≤ s.drive.sweep.phases.toNat ∧
        s.drive.sweep.onTime ≠ 0 ∧ (s.drive.sweep.mode = .normal ∨ s.drive.sweep.mode = .fallbackFlash)) ∧
    ∀ m < 8, s.commonLines.getLsbD n = true → s.commonLines.getLsbD m = true → m = n

/-- R28, R30 to R32, R36, R42: when a segment line is active, window by window. That an inverted entry is lit over a cell of
the reset record too is the model's reading of R30 beside R22 (assumption 30, DEDUCED). -/
def Claim.SegmentLinesAreGated : Prop :=
  ∀ (s : State) (n : Nat), n < 48 → s.inReset = false →
    let w := s.drive.sweep
    let first := routeEntry w.route (n * 8)
    let e := routeEntry w.route (n * 8 + (s.drive.phase - 1))
    let value := fun (e : RouteEntry) =>
      (e.kind = 2 ∨ (e.kind = 1 ∧ (patternOf w.shown w.glyph e.cell).getLsbD e.line.toNat ≠ e.invert)) ∧
        (e.kind = 1 → (w.shown[e.cell].blink = .a → w.halfA = true) ∧ (w.shown[e.cell].blink = .b → w.halfB = true))
    let line := s.segmentLines.getLsbD n
    (first.static = true → (line = true ↔ w.mode ≠ .off ∧ value first)) ∧
    (first.static = false → s.drive.window = .lit →
      (line = true ↔ (w.mode = .normal ∨ (w.mode = .fallbackFlash ∧ w.halfB = true)) ∧ value e)) ∧
    (first.static = false → s.drive.window = .dark ∨ s.drive.window = .ended → line = false) ∧
    (first.static = false → s.drive.window = .sense → (line = true ↔ n < 16 ∧ s.scanDrive.getLsbD n = true))

/-- R28, R72, R88: the columns driven in a sense window: none in OFF, in FULL the column set of the SCAN entry whose index
is the step position, and all sixteen in WAKE. -/
def Claim.ColumnsAreDrivenByMode : Prop :=
  ∀ s : State,
    (s.scanner.mode = .off → s.scanDrive = 0) ∧
    (s.scanner.mode = .full → ∀ c < 16, s.scanDrive.getLsbD c =
      if c < 8 then (byteAt s.tables.scan.active (2 * s.scanner.step + 1)).getLsbD c
      else (byteAt s.tables.scan.active (2 * s.scanner.step)).getLsbD (c - 8)) ∧
    (s.scanner.mode = .wake → ∀ c < 16, s.scanDrive.getLsbD c = true)

/-- The common and segment lines. -/
def Obligations.LinesAreDrivenByTheSweep : Prop :=
  Claim.CommonsAreActiveAlone ∧
    Claim.SegmentLinesAreGated ∧
    Claim.ColumnsAreDrivenByMode

/-! ## Key Scanner -/

/-- R79, R80, R86, R87: `s` once key `k` has become DOWN: its press record from the active KEYMAP, KEY_DOWN, the silence claim
and then the click claim. -/
def Claim.pressed (s : State) (k : Fin 128) : State :=
  let map := s.tables.keymap.active
  let flag := fun bit => (byteAt map (2 * k.val + 1)).getLsbD bit
  let press : PressRecord := ⟨byteAt map (2 * k.val), flag 0, flag 1, flag 2, flag 3, s.node.time, 0, none⟩
  let held := s.putKey k ⟨⟨true, 0⟩, some press⟩
  let told := if press.enabled then held.submit .keyDown press.code else held
  let quiet := if press.silence then told.claimSilence else told
  if press.enabled = true ∧ s.setting .clickPattern ≠ 255 ∧ (s.node.state = .online ∨ s.node.state = .standalone)
    then quiet.claimClick (s.setting .clickPattern) else quiet

/-- R81: `s` once key `k` with this press record has become UP. -/
def Claim.released (s : State) (k : Fin 128) (press : PressRecord) : State :=
  let up := s.putKey k ⟨⟨false, 0⟩, none⟩
  if press.enabled = true ∧ press.reportUp = true then up.submit .keyUp press.code else up

/-- R77: a sample applied to a debounce record. -/
def Claim.SamplesAreDebounced : Prop :=
  ∀ (d : Debounce) (closed : Bool) (threshold : Nat),
    (closed = d.down → d.sample closed threshold = ⟨d.down, 0⟩) ∧
    (closed ≠ d.down → threshold ≤ d.count + 1 → d.sample closed threshold = ⟨closed, 0⟩) ∧
    (closed ≠ d.down → d.count + 1 < threshold → d.sample closed threshold = ⟨d.down, d.count + 1⟩)

/-- R70 to R72, R77: a sample in FULL reaches the keys of the driven columns alone, and the schedule advances. -/
def Claim.FullSamplesReachTheDrivenKeys : Prop :=
  ∀ (s : State) (returns : Byte), s.inReset = false → s.drive.window = .sense → s.scanner.mode = .full →
    ∃ t, exec (.keySample returns) s = .next t ∧
      (∀ k : Fin 128, s.scanDrive.getLsbD (k.val % 16) = false → t.key k = s.key k) ∧
      (∀ k : Fin 128, s.scanDrive.getLsbD (k.val % 16) = true →
        (t.key k).debounce = (s.key k).debounce.sample (returns.getLsbD (k.val / 16))
          (if (s.key k).debounce.down then (s.setting .releaseCount).toNat else (s.setting .pressCount).toNat)) ∧
      t.scanner.step = (if s.scanner.step < scanStepCount s.tables.scan.active then s.scanner.step + 1 else 1) ∧
      t.scanner.mode = .full ∧ t.drive = { s.drive with window := .ended } ∧ t.node = s.node ∧
      t.cells = s.cells ∧ t.tables = s.tables ∧ t.settings = s.settings ∧ t.relay = s.relay ∧
      t.engine = s.engine ∧ t.light = s.light ∧ t.pending = s.pending

/-- R71: a sample in FULL is the samples of the driven columns' keys, one after the other in ascending key number, each on
the state the one before it left; then the schedule advances and the sense window has ended. -/
def Claim.FullSamplesTakeKeysInOrder : Prop :=
  ∀ (s : State) (returns : Byte), s.inReset = false → s.drive.window = .sense → s.scanner.mode = .full →
    let driven := (List.finRange 128).filter fun k => s.scanDrive.getLsbD (k.val % 16)
    let sampled := driven.foldl (fun u k => u.sampleKey k (returns.getLsbD (k.val / 16))) s
    exec (.keySample returns) s = .next
      ((sampled.withScanner
        { sampled.scanner with
          step := if s.scanner.step < scanStepCount s.tables.scan.active then s.scanner.step + 1 else 1 }).withDrive
        { s.drive with window := .ended })

/-- R77, R79 to R82, R86, R87: the sample of one key: it becomes DOWN, with its press record, KEY_DOWN, the silence claim
and the click claim in that order; it becomes UP, with KEY_UP; it is held, with KEY_REPEAT when a repeat is due; or its
debounce record alone changes. -/
def Claim.OneKeysSampleActs : Prop :=
  ∀ (s : State) (k : Fin 128) (closed : Bool),
    let d := (s.key k).debounce
    let next := d.sample closed (if d.down then (s.setting .releaseCount).toNat else (s.setting .pressCount).toNat)
    let due := fun (press : PressRecord) => press.enabled = true ∧ press.repeats = true ∧
      ((press.gap = none ∧ (s.setting .repeatDelay).toNat * 10 ≤ press.held) ∨
        ∃ gap, press.gap = some gap ∧ (s.setting .repeatInterval).toNat * 10 ≤ gap)
    (d.down = false → next.down = true → s.sampleKey k closed = Claim.pressed s k) ∧
    (d.down = false → next.down = false → s.sampleKey k closed = s.putKey k ⟨next, (s.key k).press⟩) ∧
    (∀ press, d.down = true → (s.key k).press = some press →
      (next.down = false → s.sampleKey k closed = Claim.released s k press) ∧
      (next.down = true → due press → s.sampleKey k closed =
        (s.putKey k ⟨next, some { press with gap := some 0 }⟩).submit .keyRepeat press.code) ∧
      (next.down = true → ¬due press → s.sampleKey k closed = s.putKey k ⟨next, some press⟩))

/-- KEY_SAMPLE in FULL; the columns driven are said in LinesAreDrivenByTheSweep. -/
def Obligations.FullSamplesDebounceTheDrivenKeys : Prop :=
  Claim.SamplesAreDebounced ∧
    Claim.FullSamplesReachTheDrivenKeys ∧
    Claim.FullSamplesTakeKeysInOrder ∧
    Claim.OneKeysSampleActs

/-- R71, R88, R89: in WAKE the any-key sample is closed when any return is, and wakes a QUIESCENT node when its record
becomes DOWN. In OFF R71 takes no sample: that KEY_SAMPLE commanded there ends the sense window, and does nothing else, is the
model's choice (assumption 25, DESIGN CHOICE). What the light unit's count and window sweeps hold where they have no meaning
is the model's choice too (assumption 26, DESIGN CHOICE). -/
def Claim.OtherSamplesWatchForAnyKey : Prop :=
  ∀ (s : State) (returns : Byte), s.inReset = false → s.drive.window = .sense →
    let ended := fun (u : State) => u.withDrive { u.drive with window := .ended }
    let any := fun (d : Debounce) => s.withScanner { s.scanner with anyKey := some d }
    (s.scanner.mode = .off → exec (.keySample returns) s = .next (ended s)) ∧
    ∀ d, s.scanner.mode = .wake → s.scanner.anyKey = some d →
      (returns = 0 → exec (.keySample returns) s = .next
        (ended (any (d.sample false (if d.down then (s.setting .releaseCount).toNat
          else (s.setting .pressCount).toNat))))) ∧
      (returns ≠ 0 → d.down = true ∨ d.count + 1 < (s.setting .pressCount).toNat ∨ s.node.state ≠ .quiescent →
        exec (.keySample returns) s = .next (ended (any (d.sample true (if d.down then (s.setting .releaseCount).toNat
          else (s.setting .pressCount).toNat))))) ∧
      (returns ≠ 0 → d.down = false → (s.setting .pressCount).toNat ≤ d.count + 1 → s.node.state = .quiescent →
        exec (.keySample returns) s = .next (ended
          ((((any ⟨true, 0⟩).withNode { s.node with state := .online, silence := 0 }).withLight
            (if s.setting .lightMode = 0 then s.light.stop else s.light.start (s.setting .lightMode))).withQueue
              (s.queue.take .wakeKey 0 s.node.time))))

/-- R156: the wake report alone (assumption 4, DEDUCED), in any window (assumption 25, DESIGN CHOICE), with the light unit's
values as above (assumption 26, DESIGN CHOICE). -/
def Claim.WakeReportsWakeAQuiescentNode : Prop :=
  ∀ (s : State) (count : Nat), s.scanner.mode = .wake → s.scanner.anyKey = some ⟨false, count⟩ →
    (s.setting .pressCount).toNat ≤ count + 1 →
    let any := s.withScanner { s.scanner with anyKey := some ⟨true, 0⟩ }
    (s.node.state = .quiescent → exec .wakeReport s = .next
      (((any.withNode { s.node with state := .online, silence := 0 }).withLight
        (if s.setting .lightMode = 0 then s.light.stop else s.light.start (s.setting .lightMode))).withQueue
          (s.queue.take .wakeKey 0 s.node.time))) ∧
    (s.node.state ≠ .quiescent → exec .wakeReport s = .next any)

/-- R71: no sample is taken but at the end of a sense window (assumption 3 for the command that comes otherwise). -/
def Claim.SamplesEndSenseWindows : Prop :=
  ∀ (s : State) (returns : Byte), s.drive.window ≠ .sense → exec (.keySample returns) s = .next s

/-- KEY_SAMPLE in OFF (the model's choice, assumption 25) and in WAKE, and WAKE_REPORT. -/
def Obligations.WakeSamplesWatchForAnyKey : Prop :=
  Claim.OtherSamplesWatchForAnyKey ∧
    Claim.WakeReportsWakeAQuiescentNode ∧
    Claim.SamplesEndSenseWindows

/-- R79, R80, R86, R87: a key becomes DOWN. The row taken alone applies that key's sample, and neither ends the sense window
nor advances the step (assumption 4, DEDUCED), and is taken in any window (assumption 25, DESIGN CHOICE); the same holds of
the two rows below. -/
def Claim.KeysBecomingDownReport : Prop :=
  ∀ (s : State) (k : Fin 128), s.scanner.mode = .full → s.scanDrive.getLsbD (k.val % 16) = true →
    (s.key k).debounce.down = false → (s.setting .pressCount).toNat ≤ (s.key k).debounce.count + 1 →
      exec (.becomingDown k) s = .next (Claim.pressed s k)

/-- R81: a key becomes UP: KEY_UP when the press reports it, and the record is discarded. -/
def Claim.KeysBecomingUpReport : Prop :=
  ∀ (s : State) (k : Fin 128) (press : PressRecord), s.scanner.mode = .full →
    s.scanDrive.getLsbD (k.val % 16) = true → (s.key k).debounce.down = true →
    (s.setting .releaseCount).toNat ≤ (s.key k).debounce.count + 1 → (s.key k).press = some press →
      exec (.becomingUp k) s = .next (Claim.released s k press)

/-- R82: a held key whose delay or interval is reached submits KEY_REPEAT, and its repeat gap becomes 0. -/
def Claim.HeldKeysRepeat : Prop :=
  ∀ (s : State) (k : Fin 128) (press : PressRecord) (closed : Bool), s.scanner.mode = .full →
    s.scanDrive.getLsbD (k.val % 16) = true → (s.key k).debounce.down = true →
    closed = true ∨ (s.key k).debounce.count + 1 < (s.setting .releaseCount).toNat →
    (s.key k).press = some press → press.enabled = true → press.repeats = true →
    (press.gap = none ∧ (s.setting .repeatDelay).toNat * 10 ≤ press.held) ∨
      (∃ gap, press.gap = some gap ∧ (s.setting .repeatInterval).toNat * 10 ≤ gap) →
    exec (.keyRepeat k closed) s = .next
      ((s.putKey k ⟨⟨true, if closed then 0 else (s.key k).debounce.count + 1⟩,
        some { press with gap := some 0 }⟩).submit .keyRepeat press.code)

/-- BECOMING_DOWN, BECOMING_UP and KEY_REPEAT. -/
def Obligations.KeyEventsFollowThePressRecord : Prop := Claim.KeysBecomingDownReport ∧ Claim.KeysBecomingUpReport ∧ Claim.HeldKeysRepeat

/-- Section 4.3 and R79: what the key records are outside FULL, and that UP keys have no press record. -/
def Claim.KeyRecordsFollowTheMode : Prop :=
  ∀ s t : State, s.scannerSound → step s = .next t → t.scannerSound

/-- R72: the step position stays within the active schedule. -/
def Claim.StepsStayInTheSchedule : Prop :=
  ∀ s t : State, s.tablesSound → s.stepSound → step s = .next t → t.stepSound

/-- What the Key Scanner keeps. -/
def Obligations.ScannerFollowsItsMode : Prop := Claim.KeyRecordsFollowTheMode ∧ Claim.StepsStayInTheSchedule

/-! ## Node Control -/

/-- R146: an address in 1..62 exactly while the node is not UNADDRESSED. -/
def Claim.AddressIsHeldWhileAddressed : Prop := ∀ s t : State, s.nodeSound → step s = .next t → t.nodeSound

/-- R158: the silence time is 0 in STOPPED and holds at 25500. -/
def Claim.SilenceIsBounded : Prop :=
  ∀ s t : State, s.nodeSound → s.timerSound → step s = .next t → t.timerSound

/-- What Node Control keeps: the address, the empty queue, the silence time. -/
def Obligations.AddressAndQueueFollowTheNodeState : Prop :=
  Claim.AddressIsHeldWhileAddressed ∧
    Claim.QueueStaysEmptyUnaddressed ∧
    Claim.SilenceIsBounded

/-- R160: the expiry of the link-loss timer. -/
def Claim.LinkLossEntersStandalone : Prop :=
  ∀ s : State, s.node.state = .online → s.setting .lossTimeout ≠ 0 →
    (s.setting .lossTimeout).toNat * 10 ≤ s.node.silence → s.engine = .idle →
      exec .linkLossExpiry s = .next
        ((s.withNode { s.node with state := .standalone, fallbackHold := true }).withTone
          (if s.setting .lossTone = 255 then s.tone
            else some (newPlay .alert (s.setting .lossTone) s.tables.tone.active)))

/-- R79, R134, R158, R164: what a millisecond advances, and that nothing else changes. That the segment time is counted here
and held at its duration is the model's choice (assumption 24, DESIGN CHOICE). -/
def Claim.MillisecondsAreCounted : Prop :=
  ∀ s : State, s.inReset = false →
    ∃ t, exec .millisecondTick s = .next t ∧
      t = ((s.withNode t.node).withScanner t.scanner).withTone t.tone ∧
      t.node = { s.node with time := s.node.time + 1, silence := t.node.silence } ∧
      t.node.silence =
        (if s.node.state = .standalone ∨ (s.node.state = .online ∧ s.setting .lossTimeout ≠ 0)
          then min 25500 (s.node.silence + 1) else s.node.silence) ∧
      t.scanner = { s.scanner with keys := t.scanner.keys } ∧
      (∀ k : Fin 128, (t.key k).debounce = (s.key k).debounce ∧
        (t.key k).press = (s.key k).press.map fun p =>
          { p with held := min 65535 (p.held + 1), gap := p.gap.map fun g => min 65535 (g + 1) }) ∧
      t.tone = s.tone.map fun p =>
        { p with segmentTime := min (patternDuration p.copy p.segment * 10) (p.segmentTime + 1) }

/-- LINK_LOSS_EXPIRY and MILLISECOND_TICK. -/
def Obligations.LinkLossAndMilliseconds : Prop := Claim.LinkLossEntersStandalone ∧ Claim.MillisecondsAreCounted

/-- R45, R164: a hard reset stops the sweeps, the samples and the millisecond counter. -/
def Claim.NothingCountsInReset : Prop :=
  ∀ (s : State) (order : SubmitOrder) (late : Option LateSample) (returns : Byte), s.inReset = true →
    exec (.sweepStart ⟨order, late⟩) s = .next s ∧ exec .phaseStart s = .next s ∧ exec (.keySample returns) s = .next s ∧
      exec .millisecondTick s = .next s

/-- In a hard reset the outputs are inactive and nothing is counted or sampled. -/
def Obligations.OutputsAndCountersRestInReset : Prop := Claim.OutputsAreInactiveInReset ∧ Claim.NothingCountsInReset
end

