-- ==== Sys2Proof/Laws/Bytes.lean ====
section
/-! SUPPORT. What the operations on bytes in place do: one element read after a write, and the whole list. -/

namespace Sys2Proof.Machine

@[simp] theorem overwrite_empty {α : Type} (l : List α) (i : Nat) : overwrite l i [] = l := by
  cases l <;> rfl

/-- Element `j` after a write from `i` on. -/
theorem getElem?_overwrite {α : Type} (l : List α) (i j : Nat) (new : List α) :
    (overwrite l i new)[j]? = if i ≤ j ∧ j < i + new.length ∧ j < l.length then new[j - i]? else l[j]? := by
  induction l generalizing i j new with
  | nil => simp [overwrite]
  | cons x xs ih =>
    cases new with
    | nil => simp; omega
    | cons y ys =>
      cases i with
      | zero =>
        cases j with
        | zero => simp [overwrite]
        | succ j =>
          simp only [overwrite, List.getElem?_cons_succ, ih, List.length_cons]
          simp
      | succ i =>
        cases j with
        | zero => simp [overwrite]
        | succ j =>
          simp only [overwrite, List.getElem?_cons_succ, ih, List.length_cons, Nat.add_sub_add_right]
          have same : i + 1 ≤ j + 1 ∧ j + 1 < i + 1 + (ys.length + 1) ∧ j + 1 < xs.length + 1 ↔
              i ≤ j ∧ j < i + (ys.length + 1) ∧ j < xs.length := by omega
          rw [if_congr same rfl rfl]

/-- A write that lies within the list, in three parts. -/
theorem overwrite_eq {α : Type} (l : List α) (i : Nat) (new : List α) (h : i + new.length ≤ l.length) :
    overwrite l i new = l.take i ++ new ++ l.drop (i + new.length) := by
  induction l generalizing i new with
  | nil => cases new <;> simp_all [overwrite]
  | cons x xs ih =>
    cases new with
    | nil => simp
    | cons y ys =>
      cases i with
      | zero =>
        simp only [List.length_cons] at h
        simp only [overwrite, List.take_zero, List.nil_append, List.length_cons, Nat.zero_add, List.drop_succ_cons,
          List.cons_append]
        rw [ih 0 ys (by omega)]
        simp
      | succ i =>
        simp only [List.length_cons] at h
        simp only [overwrite, List.take_succ_cons, List.cons_append, List.length_cons]
        rw [ih i (y :: ys) (by simp only [List.length_cons]; omega)]
        rw [show i + 1 + (ys.length + 1) = i + (y :: ys).length + 1 by simp only [List.length_cons]; omega]
        rfl

@[simp] theorem overwriteVector_toList {α : Type} {n : Nat} (v : Vector α n) (i : Nat) (new : List α) :
    (overwriteVector v i new).toList = overwrite v.toList i new := rfl

@[simp] theorem mapVector_toList {α β : Type} {n : Nat} (f : α → β) (v : Vector α n) :
    (mapVector f v).toList = v.toList.map f := rfl

/-- An element of a vector, through its list. -/
theorem getElem_eq_of_toList {α : Type} {n : Nat} (v : Vector α n) (j : Nat) (hj : j < n) (x : α) :
    v[j] = x ↔ v.toList[j]? = some x := by
  rw [List.getElem?_eq_getElem (by simpa using hj)]
  simp

/-- Element `j` after one element is written at `i`. -/
theorem overwriteVector_single {α : Type} {n : Nat} (v : Vector α n) (i j : Nat) (x : α) (hj : j < n) :
    (overwriteVector v i [x])[j] = if j = i then x else v[j] := by
  rw [getElem_eq_of_toList, overwriteVector_toList, getElem?_overwrite]
  by_cases h : j = i
  · subst h; simp [hj]
  · have : ¬(i ≤ j ∧ j < i + [x].length ∧ j < v.toList.length) := by
      simp only [List.length_singleton]; omega
    rw [if_neg this, if_neg h, List.getElem?_eq_getElem (by simpa using hj)]
    simp

theorem mapVector_getElem {α β : Type} {n : Nat} (f : α → β) (v : Vector α n) (j : Nat) (hj : j < n) :
    (mapVector f v)[j] = f v[j] := by
  rw [getElem_eq_of_toList]
  simp [hj]

/-- A byte of a store after one byte is written. -/
theorem byteAt_overwriteVector {n : Nat} (v : Vector Byte n) (i j : Nat) (x : Byte) (hi : i < n) :
    byteAt (overwriteVector v i [x]) j = if j = i then x else byteAt v j := by
  simp only [byteAt, overwriteVector_toList, List.getD_eq_getElem?_getD, getElem?_overwrite]
  by_cases h : j = i
  · subst h; simp [hi]
  · have : ¬(i ≤ j ∧ j < i + [x].length ∧ j < v.toList.length) := by
      simp only [List.length_singleton]; omega
    rw [if_neg this, if_neg h]

theorem settingId_lt (n : Setting) : settingId n < 24 := by cases n <;> decide

theorem settingId_inj (n m : Setting) (h : settingId n = settingId m) : n = m := by
  revert h; cases n <;> cases m <;> decide

/-- One setting stored: it reads as stored, the others as before. -/
theorem byteAt_storeSetting (st : Vector Byte 24) (n m : Setting) (v : Byte) :
    byteAt (storeSetting st n v) (settingId m) = if m = n then v else byteAt st (settingId m) := by
  rw [storeSetting, byteAt_overwriteVector _ _ _ _ (settingId_lt n)]
  by_cases h : m = n
  · simp [h]
  · rw [if_neg h, if_neg fun e => h (settingId_inj m n e)]

theorem settingOfId_settingId (n : Setting) : settingOfId (BitVec.ofNat 8 (settingId n)) = some n := by
  cases n <;> rfl

/-- R196: a group reset puts the group's settings to their defaults and leaves the others. -/
theorem byteAt_resetGroup (group : Setting → Bool) (st : Vector Byte 24) (n : Setting) :
    byteAt (resetGroup group st) (settingId n) = if group n then settingDefault n else byteAt st (settingId n) := by
  cases n <;> rfl

theorem byteAt_defaultSettings (n : Setting) : byteAt defaultSettings (settingId n) = settingDefault n := by
  cases n <;> rfl

end Sys2Proof.Machine
end

