-- ==== Sys2Proof/Laws/Cells.lean ====
section
/-! SUPPORT. The runs of the Cell Store: what a run of records, a fill and a reading give cell by cell; and the settings
a list of pairs stores. -/

namespace Sys2Proof.Machine

/-- R9 step 3: a run that passes gives the record of each of its addresses. -/
theorem recordsFor_ok (target : Nat) (records : List RecordBytes) (written : List CellRecord)
    (h : recordsFor target records = .ok written) :
    written.length = records.length ∧
      ∀ (i : Nat) (r : RecordBytes), records[i]? = some r →
        ∃ c, written[i]? = some c ∧ recordFor (target + i) r = .ok c := by
  induction records generalizing target written with
  | nil => cases h; exact ⟨rfl, fun i r hr => by simp at hr⟩
  | cons r rest ih =>
    unfold recordsFor at h
    split at h
    · cases h
    · rename_i c hc
      split at h
      · cases h
      · rename_i cs hcs
        cases h
        obtain ⟨len, all⟩ := ih _ _ hcs
        refine ⟨by simp [len], ?_⟩
        intro i r' hr'
        cases i with
        | zero => simp only [List.getElem?_cons_zero, Option.some.injEq] at hr'; subst hr'; exact ⟨c, rfl, hc⟩
        | succ i =>
          rw [List.getElem?_cons_succ] at hr' ⊢
          obtain ⟨c', h1, h2⟩ := all i r' hr'
          exact ⟨c', h1, by rw [show target + (i + 1) = target + 1 + i by omega]; exact h2⟩

/-- R9 step 3: the first record that fails, after records that pass, decides the status and the failure address. -/
theorem recordsFor_error (target : Nat) (records : List RecordBytes) (i : Nat) (r : RecordBytes) (status : Status)
    (at_ : records[i]? = some r) (fails : recordFor (target + i) r = .error status)
    (before : ∀ j r', j < i → records[j]? = some r' → ∃ c, recordFor (target + j) r' = .ok c) :
    recordsFor target records = .error (status, target + i) := by
  induction records generalizing target i with
  | nil => simp at at_
  | cons x rest ih =>
    unfold recordsFor
    cases i with
    | zero =>
      simp only [List.getElem?_cons_zero, Option.some.injEq] at at_
      subst at_
      rw [Nat.add_zero] at fails
      rw [fails]
      rfl
    | succ i =>
      obtain ⟨c, hc⟩ := before 0 x (by omega) rfl
      rw [Nat.add_zero] at hc
      rw [hc]
      rw [List.getElem?_cons_succ] at at_
      have shift : target + (i + 1) = target + 1 + i := by omega
      rw [shift] at fails ⊢
      rw [ih (target + 1) i at_ fails ?_]
      intro j r' hj hr'
      have := before (j + 1) r' (by omega) (by rw [List.getElem?_cons_succ]; exact hr')
      rwa [show target + (j + 1) = target + 1 + j by omega] at this

/-- A run of which every record passes is accepted. -/
theorem recordsFor_all (target : Nat) (records : List RecordBytes)
    (all : ∀ (i : Nat) (r : RecordBytes), records[i]? = some r → ∃ c, recordFor (target + i) r = .ok c) :
    ∃ written, recordsFor target records = .ok written := by
  induction records generalizing target with
  | nil => exact ⟨[], rfl⟩
  | cons x rest ih =>
    obtain ⟨c, hc⟩ := all 0 x rfl
    rw [Nat.add_zero] at hc
    obtain ⟨cs, hcs⟩ := ih (target + 1) (by
      intro i r hr
      have := all (i + 1) r (by rw [List.getElem?_cons_succ]; exact hr)
      rwa [show target + (i + 1) = target + 1 + i by omega] at this)
    exact ⟨c :: cs, by unfold recordsFor; rw [hc]; simp only []; rw [hcs]⟩

theorem recordsOf_length (bytes : List Byte) (records : List RecordBytes) (h : recordsOf bytes = some records) :
    bytes.length = 3 * records.length := by
  induction bytes using recordsOf.induct generalizing records with
  | case1 => cases h; rfl
  | case2 code attr lead rest ih =>
    simp only [recordsOf, Option.map_eq_some_iff] at h
    obtain ⟨found, hf, rfl⟩ := h
    have := ih found hf
    simp only [List.length_cons, this]; omega
  | case3 => cases h
  | case4 => cases h

/-- A cell after a run is written from `first` on. -/
theorem writeRun_getElem (plane : Plane) (first : Nat) (records : List CellRecord) (a : Nat) (ha : a < 128) :
    (overwriteVector plane first records)[a] =
      if h : first ≤ a ∧ a < first + records.length then records[a - first]'(by omega) else plane[a] := by
  rw [getElem_eq_of_toList, overwriteVector_toList, getElem?_overwrite]
  have len : plane.toList.length = 128 := by simp
  by_cases h : first ≤ a ∧ a < first + records.length
  · rw [if_pos ⟨h.1, h.2, by omega⟩, dif_pos h]
    exact List.getElem?_eq_getElem (by omega)
  · rw [if_neg (by omega), dif_neg h, List.getElem?_eq_getElem (by omega)]
    simp

/-- R12: a cell after a fill. -/
theorem fillPlane_getElem (record : CellRecord) (stride : Nat) (n first : Nat) (plane : Plane) (a : Nat)
    (ha : a < 128) :
    ((∃ i < n, a = first + i * stride) → (fillPlane record stride n first plane)[a] = record) ∧
      ((∀ i < n, a ≠ first + i * stride) → (fillPlane record stride n first plane)[a] = plane[a]) := by
  induction n generalizing first plane with
  | zero => exact ⟨fun h => by obtain ⟨i, hi, _⟩ := h; omega, fun _ => rfl⟩
  | succ n ih =>
    obtain ⟨hit, miss⟩ := ih (first + stride) (overwriteVector plane first [record])
    unfold fillPlane
    by_cases later : ∃ i < n, a = first + stride + i * stride
    · refine ⟨fun _ => hit later, fun none => ?_⟩
      obtain ⟨i, hi, eq⟩ := later
      exact absurd (by rw [eq, Nat.succ_mul]; omega) (none (i + 1) (by omega))
    · have later' : ∀ i < n, a ≠ first + stride + i * stride := fun i hi eq => later ⟨i, hi, eq⟩
      rw [miss later', overwriteVector_single _ _ _ _ ha]
      constructor
      · intro h
        obtain ⟨i, hi, eq⟩ := h
        cases i with
        | zero => rw [if_pos (by omega)]
        | succ i => exact absurd (by rw [eq, Nat.succ_mul]; omega) (later' i (by omega))
      · intro h
        rw [if_neg (by have := h 0 (by omega); omega)]

/-- R14, R15: the length of a cell's reading. -/
theorem readCell_length (plane : Plane) (glyphs : Vector Byte 64) (option : Byte) (cell : Fin 128) :
    (readCell plane glyphs option cell).length = if option = 0 then 3 else 1 := by
  unfold readCell; split <;> rfl

theorem readCellRun_length (plane : Plane) (glyphs : Vector Byte 64) (option : Byte) (n first : Nat)
    (inPlane : first + n ≤ 128) :
    (readCellRun plane glyphs option n first).length = (if option = 0 then 3 else 1) * n := by
  induction n generalizing first with
  | zero => simp [readCellRun]
  | succ n ih =>
    unfold readCellRun
    rw [dif_pos (by omega), List.length_append, readCell_length, ih _ (by omega), Nat.mul_succ]
    omega

/-- Entry `i` of a reading. -/
theorem readCellRun_entry (plane : Plane) (glyphs : Vector Byte 64) (option : Byte) (n first i : Nat)
    (inPlane : first + n ≤ 128) (hi : i < n) (a : Fin 128) (at_ : a.val = first + i) :
    ((readCellRun plane glyphs option n first).drop ((if option = 0 then 3 else 1) * i)).take
      (if option = 0 then 3 else 1) = readCell plane glyphs option a := by
  induction n generalizing first i with
  | zero => omega
  | succ n ih =>
    unfold readCellRun
    have place : first < 128 := by omega
    rw [dif_pos place]
    have len := readCell_length plane glyphs option ⟨first, place⟩
    cases i with
    | zero =>
      have same : (⟨first, place⟩ : Fin 128) = a := Fin.ext (by simpa using at_.symm)
      rw [same] at len ⊢
      rw [Nat.mul_zero, List.drop_zero, ← len, List.take_left]
    | succ i =>
      have drop : (readCell plane glyphs option ⟨first, place⟩ ++
          readCellRun plane glyphs option n (first + 1)).drop ((if option = 0 then 3 else 1) * (i + 1)) =
          (readCellRun plane glyphs option n (first + 1)).drop ((if option = 0 then 3 else 1) * i) := by
        rw [Nat.mul_succ, Nat.add_comm, ← len, ← List.drop_drop, List.drop_left]
      rw [drop]
      exact ih (first + 1) i (by omega) (by omega) (by omega)

/-- R198: the last value given for a setting is the one that is stored. -/
theorem byteAt_storePairs (pairs : List (Byte × Byte)) (st : Vector Byte 24) (n : Setting) :
    byteAt (storePairs pairs st) (settingId n) =
      ((pairs.reverse.find? fun pair => settingOfId pair.1 == some n).map Prod.snd).getD
        (byteAt st (settingId n)) := by
  induction pairs generalizing st with
  | nil => rfl
  | cons pair rest ih =>
    unfold storePairs
    rw [ih, List.reverse_cons, List.find?_append]
    cases found : rest.reverse.find? fun pair => settingOfId pair.1 == some n with
    | some other => rfl
    | none =>
      simp only [Option.none_or, Option.map_none, Option.getD_none, List.find?_singleton]
      cases named : settingOfId pair.1 with
      | none => rfl
      | some m =>
        simp only []
        rw [byteAt_storeSetting]
        by_cases h : n = m
        · subst h; simp
        · rw [if_neg h, if_neg (by simpa using fun e => h e.symm)]; rfl

end Sys2Proof.Machine
end

