-- ==== Sys2Proof/Laws/Frames.lean ====
section
/-! SUPPORT. What each shared operation can change: one equation for each, which names the fields the operation may
write; every other field is as before, by rfl after rewriting with it. -/

namespace Sys2Proof.Machine

variable (s : State)

/-! ## Events, tone, light, Node Control -/

theorem submit_frame (k : EventKind) (a : Byte) : s.submit k a = s.withQueue (s.submit k a).queue := by
  unfold State.submit; split <;> rfl

theorem submitSome_frame (o : Option (EventKind × Byte)) : s.submitSome o = s.withQueue (s.submitSome o).queue := by
  cases o with
  | none => rfl
  | some e => exact submit_frame s e.1 e.2

theorem claimClick_frame (n : Byte) : s.claimClick n = s.withTone (s.claimClick n).tone := by
  unfold State.claimClick; split <;> rfl

theorem claimAlert_frame (n : Byte) : s.claimAlert n = s.withTone (s.claimAlert n).tone := rfl

theorem claimSilence_frame : s.claimSilence = s.withTone s.claimSilence.tone := by
  unfold State.claimSilence; split <;> rfl

theorem claimLinkResumed_frame : s.claimLinkResumed = s.withTone s.claimLinkResumed.tone := by
  unfold State.claimLinkResumed; split <;> rfl

theorem completeMeasurement_frame (r : Nat) (o : Bool) :
    s.completeMeasurement r o =
      (s.withLight (s.completeMeasurement r o).light).withQueue (s.completeMeasurement r o).queue := by
  unfold State.completeMeasurement; rw [submitSome_frame]; rfl

theorem overflowPeriod_frame :
    s.overflowPeriod = (s.withLight s.overflowPeriod.light).withQueue s.overflowPeriod.queue := by
  unfold State.overflowPeriod; rw [completeMeasurement_frame]; rfl

theorem lsRisingEdge_frame (us : Nat) :
    s.lsRisingEdge us = (s.withLight (s.lsRisingEdge us).light).withQueue (s.lsRisingEdge us).queue := by
  unfold State.lsRisingEdge State.closePeriod
  split
  · rfl
  · split
    · rfl
    · rw [overflowPeriod_frame]; rfl
  · split
    · rw [completeMeasurement_frame]; rfl
    · rw [overflowPeriod_frame]; rfl
  · rfl
  · rfl

theorem periodOverflow_frame :
    s.periodOverflow = (s.withLight s.periodOverflow.light).withQueue s.periodOverflow.queue := by
  unfold State.periodOverflow; split
  · rw [overflowPeriod_frame]; rfl
  · rfl

theorem windowComplete_frame :
    s.windowComplete = (s.withLight s.windowComplete.light).withQueue s.windowComplete.queue := by
  unfold State.windowComplete; split
  · rw [submitSome_frame]; rfl
  · rfl

theorem lightSweep_frame : s.lightSweep = s.withLight s.lightSweep.light := by
  unfold State.lightSweep; split <;> try rfl
  split <;> rfl

theorem lightMicrosecond_frame :
    s.lightMicrosecond = (s.withLight s.lightMicrosecond.light).withQueue s.lightMicrosecond.queue := by
  unfold State.lightMicrosecond; split
  · split
    · rw [overflowPeriod_frame]; rfl
    · rfl
  · rfl

theorem microsecond_frame :
    s.microsecond = ((s.withLight s.microsecond.light).withQueue s.microsecond.queue).withTone s.microsecond.tone := by
  unfold State.microsecond; rw [lightMicrosecond_frame]; rfl

theorem returnOnline_frame :
    s.returnOnline = ((s.withNode s.returnOnline.node).withTone s.returnOnline.tone).withQueue s.returnOnline.queue := by
  unfold State.returnOnline; rw [submit_frame, claimLinkResumed_frame]; rfl

theorem reportGoodFrame_frame :
    s.reportGoodFrame =
      ((s.withNode s.reportGoodFrame.node).withTone s.reportGoodFrame.tone).withQueue s.reportGoodFrame.queue := by
  unfold State.reportGoodFrame; split
  · rfl
  · rfl
  · rw [returnOnline_frame]; rfl
  · rfl

theorem takeAddress_frame (a : Byte) :
    s.takeAddress a = (s.withNode (s.takeAddress a).node).withLight (s.takeAddress a).light := by
  unfold State.takeAddress; split <;> rfl

/-! ## Frames, ENUMERATE and GATHER -/

theorem putSlot_frame (id : SlotId) (x : Slot) : s.putSlot id x = s.withRelay (s.putSlot id x).relay := by
  cases id <;> rfl

theorem editFrame_frame (id : SlotId) (at_ : Nat) (new : List Byte) :
    s.editFrame id at_ new = s.withRelay (s.editFrame id at_ new).relay := putSlot_frame ..

theorem markReady_frame (id : SlotId) (mark : EndMark) :
    s.markReady id mark = s.withRelay (s.markReady id mark).relay := by cases id <;> rfl

theorem readyGood_frame (id : SlotId) : s.readyGood id = s.withRelay (s.readyGood id).relay := by
  cases id <;> rfl

theorem openFrame_frame : s.openFrame = s.withRelay s.openFrame.relay := by
  unfold State.openFrame; split
  · rfl
  · split <;> rfl

theorem enumTake_frame (id : SlotId) (bytes : List Byte) :
    s.enumTake id bytes =
      ((s.withNode (s.enumTake id bytes).node).withLight (s.enumTake id bytes).light).withRelay
        (s.enumTake id bytes).relay := by
  unfold State.enumTake; rw [editFrame_frame, takeAddress_frame]; rfl

/-- What an ENUMERATE never changes. -/
theorem enumerate_keeps (id : SlotId) (bytes : List Byte) :
    (s.enumerate id bytes).rstLow = s.rstLow ∧ (s.enumerate id bytes).supplyOk = s.supplyOk ∧
      (s.enumerate id bytes).settings = s.settings ∧ (s.enumerate id bytes).cells = s.cells ∧
      (s.enumerate id bytes).tables = s.tables ∧ (s.enumerate id bytes).drive = s.drive ∧
      (s.enumerate id bytes).pending = s.pending ∧ (s.enumerate id bytes).engine = s.engine := by
  unfold State.enumerate; split
  · split
    · rw [enumTake_frame]; exact ⟨rfl, rfl, rfl, rfl, rfl, rfl, rfl, rfl⟩
    · unfold State.enumExhausted; rw [editFrame_frame]; split <;> exact ⟨rfl, rfl, rfl, rfl, rfl, rfl, rfl, rfl⟩
  · exact ⟨rfl, rfl, rfl, rfl, rfl, rfl, rfl, rfl⟩

theorem gatherPass_frame (id : SlotId) (bytes : List Byte) :
    s.gatherPass id bytes =
      (s.withQueue (s.gatherPass id bytes).queue).withRelay (s.gatherPass id bytes).relay := by
  unfold State.gatherPass; split
  · rw [putSlot_frame]; rfl
  · rfl

/-! ## The Request Engine -/

theorem writeReply_frame (p : Processing) (item : List Byte) :
    s.writeReply p item = s.withRelay (s.writeReply p item).relay := editFrame_frame ..

theorem closeReply_frame (p : Processing) : s.closeReply p = s.withRelay (s.closeReply p).relay := by
  unfold State.closeReply; rw [editFrame_frame, editFrame_frame, editFrame_frame]; rfl

theorem endProcessing_frame (p : Processing) (due : Option Scope) :
    s.endProcessing p due =
      (s.withRelay (s.endProcessing p due).relay).withEngine (s.endProcessing p due).engine := by
  unfold State.endProcessing
  cases due <;> cases p.broadcast <;> simp only [if_true, Bool.false_eq_true, if_false]
  · rw [readyGood_frame, closeReply_frame]; rfl
  · rw [readyGood_frame]; rfl
  · rw [closeReply_frame]; rfl
  · rfl

theorem afterItem_frame (p : Processing) (stop : Bool) (due : Option Scope) :
    s.afterItem p stop due =
      (s.withRelay (s.afterItem p stop due).relay).withEngine (s.afterItem p stop due).engine := by
  unfold State.afterItem; split
  · exact endProcessing_frame ..
  · rfl

theorem beginProcessing_frame (id : SlotId) (b : Bool) (a : Byte) (request : List Byte) :
    s.beginProcessing id b a request =
      (s.withRelay (s.beginProcessing id b a request).relay).withEngine (s.beginProcessing id b a request).engine :=
  afterItem_frame ..

theorem takeMalformed_frame :
    s.takeMalformed = (s.withRelay s.takeMalformed.relay).withEngine s.takeMalformed.engine := by
  unfold State.takeMalformed; split
  · rfl
  · split
    · rfl
    · split
      · exact endProcessing_frame ..
      · split
        · rw [endProcessing_frame, writeReply_frame]; rfl
        · exact endProcessing_frame ..

/-- A request that changes nothing changes the relay and the engine alone. -/
theorem answerItem_refused_frame (p : Processing) (code : Byte) (params : List Byte) (status : Status)
    (data : List Byte) :
    s.answerItem p code params (refusedWith · status data) =
      (s.withRelay (s.answerItem p code params (refusedWith · status data)).relay).withEngine
        (s.answerItem p code params (refusedWith · status data)).engine := by
  unfold State.answerItem; split
  · simp only [refusedWith]; rw [afterItem_frame, writeReply_frame]; rfl
  · exact endProcessing_frame ..

theorem takeUnknown_frame (code : Byte) (params : List Byte) :
    s.takeUnknown code params =
      (s.withRelay (s.takeUnknown code params).relay).withEngine (s.takeUnknown code params).engine := by
  unfold State.takeUnknown; split
  · rfl
  · split
    · split
      · unfold State.broadcastItem; exact afterItem_frame ..
      · exact answerItem_refused_frame ..
    · rfl

/-- Taking a request's item: the item is not taken and nothing changes, or it is truncated, or skipped, or the owner
serves it and the relay and the engine alone change after that. -/
theorem takeItem_cases (c : Instr) (serve : State → Served) :
    (∃ relay engine, s.takeItem c serve = (s.withRelay relay).withEngine engine) ∨
      ∃ relay engine, s.takeItem c serve = ((serve s).state.withRelay relay).withEngine engine := by
  unfold State.takeItem
  split
  · exact Or.inl ⟨s.relay, s.engine, rfl⟩
  · split
    · exact Or.inl ⟨s.relay, s.engine, rfl⟩
    · split
      · split
        · unfold State.broadcastItem; split
          · exact Or.inr ⟨_, _, afterItem_frame ..⟩
          · exact Or.inl ⟨_, _, afterItem_frame ..⟩
        · unfold State.answerItem; split
          · simp only []; rw [afterItem_frame, writeReply_frame]; exact Or.inr ⟨_, _, rfl⟩
          · exact Or.inl ⟨_, _, endProcessing_frame ..⟩
      · exact Or.inl ⟨s.relay, s.engine, rfl⟩

/-- What the hand-over of a good frame to its owner never changes. -/
theorem handOver_keeps (id : SlotId) (bytes : List Byte) :
    (s.handOver id bytes).rstLow = s.rstLow ∧ (s.handOver id bytes).supplyOk = s.supplyOk ∧
      (s.handOver id bytes).settings = s.settings ∧ (s.handOver id bytes).cells = s.cells ∧
      (s.handOver id bytes).tables = s.tables ∧ (s.handOver id bytes).drive = s.drive ∧
      (s.handOver id bytes).pending = s.pending := by
  unfold State.handOver; split
  · rw [readyGood_frame]
    obtain ⟨h1, h2, h3, h4, h5, h6, h7, _⟩ := enumerate_keeps s id bytes
    exact ⟨h1, h2, h3, h4, h5, h6, h7⟩
  · split
    · rw [readyGood_frame, gatherPass_frame]; exact ⟨rfl, rfl, rfl, rfl, rfl, rfl, rfl⟩
    · split
      · rw [beginProcessing_frame]; exact ⟨rfl, rfl, rfl, rfl, rfl, rfl, rfl⟩
      · rw [readyGood_frame]; exact ⟨rfl, rfl, rfl, rfl, rfl, rfl, rfl⟩

/-- What the end of a stored frame never changes. -/
theorem endStored_keeps (id : SlotId) (e : FrameEnd) :
    (s.endStored id e).rstLow = s.rstLow ∧ (s.endStored id e).supplyOk = s.supplyOk ∧
      (s.endStored id e).settings = s.settings ∧ (s.endStored id e).cells = s.cells ∧
      (s.endStored id e).tables = s.tables ∧ (s.endStored id e).drive = s.drive ∧
      (s.endStored id e).pending = s.pending := by
  unfold State.endStored State.endBad State.endAborted State.endGood
  split
  · split
    · split
      · exact ⟨rfl, rfl, rfl, rfl, rfl, rfl, rfl⟩
      · obtain ⟨h1, h2, h3, h4, h5, h6, h7⟩ :=
          handOver_keeps ((s.setReceive .between).reportGoodFrame) id (s.slot id).bytes
        rw [h1, h2, h3, h4, h5, h6, h7, reportGoodFrame_frame]
        exact ⟨rfl, rfl, rfl, rfl, rfl, rfl, rfl⟩
    · rw [markReady_frame]; exact ⟨rfl, rfl, rfl, rfl, rfl, rfl, rfl⟩
  · rw [markReady_frame]; exact ⟨rfl, rfl, rfl, rfl, rfl, rfl, rfl⟩
  · rw [markReady_frame]; exact ⟨rfl, rfl, rfl, rfl, rfl, rfl, rfl⟩
  · rw [openFrame_frame, markReady_frame]; exact ⟨rfl, rfl, rfl, rfl, rfl, rfl, rfl⟩
  · split
    · exact ⟨rfl, rfl, rfl, rfl, rfl, rfl, rfl⟩
    · rw [markReady_frame]; exact ⟨rfl, rfl, rfl, rfl, rfl, rfl, rfl⟩

/-- The end of a frame that is not good changes the relay alone. -/
theorem endStored_frame (id : SlotId) (e : FrameEnd) (h : e ≠ .closed) :
    s.endStored id e = s.withRelay (s.endStored id e).relay := by
  cases e
  · exact absurd rfl h
  · change (s.markReady id .ab).setReceive .between = _; rw [markReady_frame]; rfl
  · change ((s.markReady id .ab).countError).setReceive .between = _; rw [markReady_frame]; rfl
  · change ((s.markReady id .ab).countError).openFrame = s.withRelay ((s.markReady id .ab).countError).openFrame.relay
    rw [openFrame_frame]; cases id <;> rfl
  · unfold State.endStored; simp only []; split
    · rfl
    · change ((s.markReady id .ab).countError).setReceive .discarding = _; rw [markReady_frame]; rfl

theorem endUnstored_frame (n : Nat) (e : FrameEnd) : s.endUnstored n e = s.withRelay (s.endUnstored n e).relay := by
  unfold State.endUnstored; split <;> try rfl
  · rw [openFrame_frame]; rfl
  · split <;> rfl

theorem endDiscarding_frame (e : FrameEnd) : s.endDiscarding e = s.withRelay (s.endDiscarding e).relay := by
  unfold State.endDiscarding; split <;> try rfl
  exact openFrame_frame s

theorem frameOpen_frame : s.frameOpen = s.withRelay s.frameOpen.relay := by
  unfold State.frameOpen; split
  · exact openFrame_frame s
  · exact endStored_frame s _ _ (by intro h; cases h)
  · exact endUnstored_frame ..
  · exact openFrame_frame s

theorem takeByte_frame (b : Byte) (m : Bool) : s.takeByte b m = s.withRelay (s.takeByte b m).relay := by
  unfold State.takeByte State.storeByte State.countByte; split
  · rfl
  · split
    · exact putSlot_frame ..
    · exact endStored_frame s _ _ (by intro h; cases h)
  · split
    · rfl
    · exact endUnstored_frame ..
  · rfl

theorem byteReceived_frame (sym : Symbol) : s.byteReceived sym = s.withRelay (s.byteReceived sym).relay := by
  cases sym <;> first | exact takeByte_frame .. | rfl

theorem transmitStart_frame (idles : Nat) : s.transmitStart idles = s.withRelay (s.transmitStart idles).relay := by
  unfold State.transmitStart State.beginSending
  split
  · rfl
  · split
    · split <;> rfl
    · split
      · simp only []; rw [putSlot_frame]; rfl
      · split <;> rfl

theorem transmitEnd_frame : s.transmitEnd = s.withRelay s.transmitEnd.relay := by
  unfold State.transmitEnd; split
  · rfl
  · rw [putSlot_frame]; rfl

theorem tailEnd_frame (n : Nat) (e : FrameEnd) : s.tailEnd n e = s.withRelay (s.tailEnd n e).relay := by
  unfold State.tailEnd; split <;> try rfl
  · rw [openFrame_frame]; rfl
  · split <;> rfl

theorem repeatSymbol_frame (rep : Repetition) (sym : Symbol) :
    s.repeatSymbol rep sym = s.withRelay (s.repeatSymbol rep sym).relay := by cases sym <;> rfl

theorem bypassSymbol_frame (sym : Symbol) : s.bypassSymbol sym = s.withRelay (s.bypassSymbol sym).relay := by
  unfold State.bypassSymbol State.awaitRepetition State.tailSymbol State.tailByte
  split
  · split
    · rfl
    · split
      · exact repeatSymbol_frame ..
      · rfl
    · exact repeatSymbol_frame ..
    · exact repeatSymbol_frame ..
    · split
      · split
        · rfl
        · exact tailEnd_frame ..
      · split
        · rfl
        · exact tailEnd_frame ..
      · exact tailEnd_frame ..
      · exact tailEnd_frame ..
      · exact tailEnd_frame ..
      · exact tailEnd_frame ..
  · rfl

theorem bypassTailEnd_frame (e : FrameEnd) : s.bypassTailEnd e = s.withRelay (s.bypassTailEnd e).relay := by
  unfold State.bypassTailEnd; split
  · rfl
  · rfl
  · exact tailEnd_frame ..

end Sys2Proof.Machine
end

