-- ==== Sys2Proof/Laws/State.lean ====
section
/-! SUPPORT. One lemma for each field of State under each update of State, true by rfl: a proof never has to unfold
a record update. -/

namespace Sys2Proof.Machine

variable (s : State)

@[simp] theorem State.withRstLow_rstLow (x : Bool) : (s.withRstLow x).rstLow = x := rfl
@[simp] theorem State.withRstLow_supplyOk (x : Bool) : (s.withRstLow x).supplyOk = s.supplyOk := rfl
@[simp] theorem State.withRstLow_relay (x : Bool) : (s.withRstLow x).relay = s.relay := rfl
@[simp] theorem State.withRstLow_node (x : Bool) : (s.withRstLow x).node = s.node := rfl
@[simp] theorem State.withRstLow_engine (x : Bool) : (s.withRstLow x).engine = s.engine := rfl
@[simp] theorem State.withRstLow_settings (x : Bool) : (s.withRstLow x).settings = s.settings := rfl
@[simp] theorem State.withRstLow_cells (x : Bool) : (s.withRstLow x).cells = s.cells := rfl
@[simp] theorem State.withRstLow_tables (x : Bool) : (s.withRstLow x).tables = s.tables := rfl
@[simp] theorem State.withRstLow_drive (x : Bool) : (s.withRstLow x).drive = s.drive := rfl
@[simp] theorem State.withRstLow_scanner (x : Bool) : (s.withRstLow x).scanner = s.scanner := rfl
@[simp] theorem State.withRstLow_queue (x : Bool) : (s.withRstLow x).queue = s.queue := rfl
@[simp] theorem State.withRstLow_light (x : Bool) : (s.withRstLow x).light = s.light := rfl
@[simp] theorem State.withRstLow_tone (x : Bool) : (s.withRstLow x).tone = s.tone := rfl
@[simp] theorem State.withRstLow_pending (x : Bool) : (s.withRstLow x).pending = s.pending := rfl

@[simp] theorem State.withSupplyOk_rstLow (x : Bool) : (s.withSupplyOk x).rstLow = s.rstLow := rfl
@[simp] theorem State.withSupplyOk_supplyOk (x : Bool) : (s.withSupplyOk x).supplyOk = x := rfl
@[simp] theorem State.withSupplyOk_relay (x : Bool) : (s.withSupplyOk x).relay = s.relay := rfl
@[simp] theorem State.withSupplyOk_node (x : Bool) : (s.withSupplyOk x).node = s.node := rfl
@[simp] theorem State.withSupplyOk_engine (x : Bool) : (s.withSupplyOk x).engine = s.engine := rfl
@[simp] theorem State.withSupplyOk_settings (x : Bool) : (s.withSupplyOk x).settings = s.settings := rfl
@[simp] theorem State.withSupplyOk_cells (x : Bool) : (s.withSupplyOk x).cells = s.cells := rfl
@[simp] theorem State.withSupplyOk_tables (x : Bool) : (s.withSupplyOk x).tables = s.tables := rfl
@[simp] theorem State.withSupplyOk_drive (x : Bool) : (s.withSupplyOk x).drive = s.drive := rfl
@[simp] theorem State.withSupplyOk_scanner (x : Bool) : (s.withSupplyOk x).scanner = s.scanner := rfl
@[simp] theorem State.withSupplyOk_queue (x : Bool) : (s.withSupplyOk x).queue = s.queue := rfl
@[simp] theorem State.withSupplyOk_light (x : Bool) : (s.withSupplyOk x).light = s.light := rfl
@[simp] theorem State.withSupplyOk_tone (x : Bool) : (s.withSupplyOk x).tone = s.tone := rfl
@[simp] theorem State.withSupplyOk_pending (x : Bool) : (s.withSupplyOk x).pending = s.pending := rfl

@[simp] theorem State.withRelay_rstLow (x : Relay) : (s.withRelay x).rstLow = s.rstLow := rfl
@[simp] theorem State.withRelay_supplyOk (x : Relay) : (s.withRelay x).supplyOk = s.supplyOk := rfl
@[simp] theorem State.withRelay_relay (x : Relay) : (s.withRelay x).relay = x := rfl
@[simp] theorem State.withRelay_node (x : Relay) : (s.withRelay x).node = s.node := rfl
@[simp] theorem State.withRelay_engine (x : Relay) : (s.withRelay x).engine = s.engine := rfl
@[simp] theorem State.withRelay_settings (x : Relay) : (s.withRelay x).settings = s.settings := rfl
@[simp] theorem State.withRelay_cells (x : Relay) : (s.withRelay x).cells = s.cells := rfl
@[simp] theorem State.withRelay_tables (x : Relay) : (s.withRelay x).tables = s.tables := rfl
@[simp] theorem State.withRelay_drive (x : Relay) : (s.withRelay x).drive = s.drive := rfl
@[simp] theorem State.withRelay_scanner (x : Relay) : (s.withRelay x).scanner = s.scanner := rfl
@[simp] theorem State.withRelay_queue (x : Relay) : (s.withRelay x).queue = s.queue := rfl
@[simp] theorem State.withRelay_light (x : Relay) : (s.withRelay x).light = s.light := rfl
@[simp] theorem State.withRelay_tone (x : Relay) : (s.withRelay x).tone = s.tone := rfl
@[simp] theorem State.withRelay_pending (x : Relay) : (s.withRelay x).pending = s.pending := rfl

@[simp] theorem State.withNode_rstLow (x : NodeControl) : (s.withNode x).rstLow = s.rstLow := rfl
@[simp] theorem State.withNode_supplyOk (x : NodeControl) : (s.withNode x).supplyOk = s.supplyOk := rfl
@[simp] theorem State.withNode_relay (x : NodeControl) : (s.withNode x).relay = s.relay := rfl
@[simp] theorem State.withNode_node (x : NodeControl) : (s.withNode x).node = x := rfl
@[simp] theorem State.withNode_engine (x : NodeControl) : (s.withNode x).engine = s.engine := rfl
@[simp] theorem State.withNode_settings (x : NodeControl) : (s.withNode x).settings = s.settings := rfl
@[simp] theorem State.withNode_cells (x : NodeControl) : (s.withNode x).cells = s.cells := rfl
@[simp] theorem State.withNode_tables (x : NodeControl) : (s.withNode x).tables = s.tables := rfl
@[simp] theorem State.withNode_drive (x : NodeControl) : (s.withNode x).drive = s.drive := rfl
@[simp] theorem State.withNode_scanner (x : NodeControl) : (s.withNode x).scanner = s.scanner := rfl
@[simp] theorem State.withNode_queue (x : NodeControl) : (s.withNode x).queue = s.queue := rfl
@[simp] theorem State.withNode_light (x : NodeControl) : (s.withNode x).light = s.light := rfl
@[simp] theorem State.withNode_tone (x : NodeControl) : (s.withNode x).tone = s.tone := rfl
@[simp] theorem State.withNode_pending (x : NodeControl) : (s.withNode x).pending = s.pending := rfl

@[simp] theorem State.withEngine_rstLow (x : Engine) : (s.withEngine x).rstLow = s.rstLow := rfl
@[simp] theorem State.withEngine_supplyOk (x : Engine) : (s.withEngine x).supplyOk = s.supplyOk := rfl
@[simp] theorem State.withEngine_relay (x : Engine) : (s.withEngine x).relay = s.relay := rfl
@[simp] theorem State.withEngine_node (x : Engine) : (s.withEngine x).node = s.node := rfl
@[simp] theorem State.withEngine_engine (x : Engine) : (s.withEngine x).engine = x := rfl
@[simp] theorem State.withEngine_settings (x : Engine) : (s.withEngine x).settings = s.settings := rfl
@[simp] theorem State.withEngine_cells (x : Engine) : (s.withEngine x).cells = s.cells := rfl
@[simp] theorem State.withEngine_tables (x : Engine) : (s.withEngine x).tables = s.tables := rfl
@[simp] theorem State.withEngine_drive (x : Engine) : (s.withEngine x).drive = s.drive := rfl
@[simp] theorem State.withEngine_scanner (x : Engine) : (s.withEngine x).scanner = s.scanner := rfl
@[simp] theorem State.withEngine_queue (x : Engine) : (s.withEngine x).queue = s.queue := rfl
@[simp] theorem State.withEngine_light (x : Engine) : (s.withEngine x).light = s.light := rfl
@[simp] theorem State.withEngine_tone (x : Engine) : (s.withEngine x).tone = s.tone := rfl
@[simp] theorem State.withEngine_pending (x : Engine) : (s.withEngine x).pending = s.pending := rfl

@[simp] theorem State.withSettings_rstLow (x : Vector Byte 24) : (s.withSettings x).rstLow = s.rstLow := rfl
@[simp] theorem State.withSettings_supplyOk (x : Vector Byte 24) : (s.withSettings x).supplyOk = s.supplyOk := rfl
@[simp] theorem State.withSettings_relay (x : Vector Byte 24) : (s.withSettings x).relay = s.relay := rfl
@[simp] theorem State.withSettings_node (x : Vector Byte 24) : (s.withSettings x).node = s.node := rfl
@[simp] theorem State.withSettings_engine (x : Vector Byte 24) : (s.withSettings x).engine = s.engine := rfl
@[simp] theorem State.withSettings_settings (x : Vector Byte 24) : (s.withSettings x).settings = x := rfl
@[simp] theorem State.withSettings_cells (x : Vector Byte 24) : (s.withSettings x).cells = s.cells := rfl
@[simp] theorem State.withSettings_tables (x : Vector Byte 24) : (s.withSettings x).tables = s.tables := rfl
@[simp] theorem State.withSettings_drive (x : Vector Byte 24) : (s.withSettings x).drive = s.drive := rfl
@[simp] theorem State.withSettings_scanner (x : Vector Byte 24) : (s.withSettings x).scanner = s.scanner := rfl
@[simp] theorem State.withSettings_queue (x : Vector Byte 24) : (s.withSettings x).queue = s.queue := rfl
@[simp] theorem State.withSettings_light (x : Vector Byte 24) : (s.withSettings x).light = s.light := rfl
@[simp] theorem State.withSettings_tone (x : Vector Byte 24) : (s.withSettings x).tone = s.tone := rfl
@[simp] theorem State.withSettings_pending (x : Vector Byte 24) : (s.withSettings x).pending = s.pending := rfl

@[simp] theorem State.withCells_rstLow (x : CellStore) : (s.withCells x).rstLow = s.rstLow := rfl
@[simp] theorem State.withCells_supplyOk (x : CellStore) : (s.withCells x).supplyOk = s.supplyOk := rfl
@[simp] theorem State.withCells_relay (x : CellStore) : (s.withCells x).relay = s.relay := rfl
@[simp] theorem State.withCells_node (x : CellStore) : (s.withCells x).node = s.node := rfl
@[simp] theorem State.withCells_engine (x : CellStore) : (s.withCells x).engine = s.engine := rfl
@[simp] theorem State.withCells_settings (x : CellStore) : (s.withCells x).settings = s.settings := rfl
@[simp] theorem State.withCells_cells (x : CellStore) : (s.withCells x).cells = x := rfl
@[simp] theorem State.withCells_tables (x : CellStore) : (s.withCells x).tables = s.tables := rfl
@[simp] theorem State.withCells_drive (x : CellStore) : (s.withCells x).drive = s.drive := rfl
@[simp] theorem State.withCells_scanner (x : CellStore) : (s.withCells x).scanner = s.scanner := rfl
@[simp] theorem State.withCells_queue (x : CellStore) : (s.withCells x).queue = s.queue := rfl
@[simp] theorem State.withCells_light (x : CellStore) : (s.withCells x).light = s.light := rfl
@[simp] theorem State.withCells_tone (x : CellStore) : (s.withCells x).tone = s.tone := rfl
@[simp] theorem State.withCells_pending (x : CellStore) : (s.withCells x).pending = s.pending := rfl

@[simp] theorem State.withTables_rstLow (x : TableStore) : (s.withTables x).rstLow = s.rstLow := rfl
@[simp] theorem State.withTables_supplyOk (x : TableStore) : (s.withTables x).supplyOk = s.supplyOk := rfl
@[simp] theorem State.withTables_relay (x : TableStore) : (s.withTables x).relay = s.relay := rfl
@[simp] theorem State.withTables_node (x : TableStore) : (s.withTables x).node = s.node := rfl
@[simp] theorem State.withTables_engine (x : TableStore) : (s.withTables x).engine = s.engine := rfl
@[simp] theorem State.withTables_settings (x : TableStore) : (s.withTables x).settings = s.settings := rfl
@[simp] theorem State.withTables_cells (x : TableStore) : (s.withTables x).cells = s.cells := rfl
@[simp] theorem State.withTables_tables (x : TableStore) : (s.withTables x).tables = x := rfl
@[simp] theorem State.withTables_drive (x : TableStore) : (s.withTables x).drive = s.drive := rfl
@[simp] theorem State.withTables_scanner (x : TableStore) : (s.withTables x).scanner = s.scanner := rfl
@[simp] theorem State.withTables_queue (x : TableStore) : (s.withTables x).queue = s.queue := rfl
@[simp] theorem State.withTables_light (x : TableStore) : (s.withTables x).light = s.light := rfl
@[simp] theorem State.withTables_tone (x : TableStore) : (s.withTables x).tone = s.tone := rfl
@[simp] theorem State.withTables_pending (x : TableStore) : (s.withTables x).pending = s.pending := rfl

@[simp] theorem State.withDrive_rstLow (x : Drive) : (s.withDrive x).rstLow = s.rstLow := rfl
@[simp] theorem State.withDrive_supplyOk (x : Drive) : (s.withDrive x).supplyOk = s.supplyOk := rfl
@[simp] theorem State.withDrive_relay (x : Drive) : (s.withDrive x).relay = s.relay := rfl
@[simp] theorem State.withDrive_node (x : Drive) : (s.withDrive x).node = s.node := rfl
@[simp] theorem State.withDrive_engine (x : Drive) : (s.withDrive x).engine = s.engine := rfl
@[simp] theorem State.withDrive_settings (x : Drive) : (s.withDrive x).settings = s.settings := rfl
@[simp] theorem State.withDrive_cells (x : Drive) : (s.withDrive x).cells = s.cells := rfl
@[simp] theorem State.withDrive_tables (x : Drive) : (s.withDrive x).tables = s.tables := rfl
@[simp] theorem State.withDrive_drive (x : Drive) : (s.withDrive x).drive = x := rfl
@[simp] theorem State.withDrive_scanner (x : Drive) : (s.withDrive x).scanner = s.scanner := rfl
@[simp] theorem State.withDrive_queue (x : Drive) : (s.withDrive x).queue = s.queue := rfl
@[simp] theorem State.withDrive_light (x : Drive) : (s.withDrive x).light = s.light := rfl
@[simp] theorem State.withDrive_tone (x : Drive) : (s.withDrive x).tone = s.tone := rfl
@[simp] theorem State.withDrive_pending (x : Drive) : (s.withDrive x).pending = s.pending := rfl

@[simp] theorem State.withScanner_rstLow (x : Scanner) : (s.withScanner x).rstLow = s.rstLow := rfl
@[simp] theorem State.withScanner_supplyOk (x : Scanner) : (s.withScanner x).supplyOk = s.supplyOk := rfl
@[simp] theorem State.withScanner_relay (x : Scanner) : (s.withScanner x).relay = s.relay := rfl
@[simp] theorem State.withScanner_node (x : Scanner) : (s.withScanner x).node = s.node := rfl
@[simp] theorem State.withScanner_engine (x : Scanner) : (s.withScanner x).engine = s.engine := rfl
@[simp] theorem State.withScanner_settings (x : Scanner) : (s.withScanner x).settings = s.settings := rfl
@[simp] theorem State.withScanner_cells (x : Scanner) : (s.withScanner x).cells = s.cells := rfl
@[simp] theorem State.withScanner_tables (x : Scanner) : (s.withScanner x).tables = s.tables := rfl
@[simp] theorem State.withScanner_drive (x : Scanner) : (s.withScanner x).drive = s.drive := rfl
@[simp] theorem State.withScanner_scanner (x : Scanner) : (s.withScanner x).scanner = x := rfl
@[simp] theorem State.withScanner_queue (x : Scanner) : (s.withScanner x).queue = s.queue := rfl
@[simp] theorem State.withScanner_light (x : Scanner) : (s.withScanner x).light = s.light := rfl
@[simp] theorem State.withScanner_tone (x : Scanner) : (s.withScanner x).tone = s.tone := rfl
@[simp] theorem State.withScanner_pending (x : Scanner) : (s.withScanner x).pending = s.pending := rfl

@[simp] theorem State.withQueue_rstLow (x : EventQueue) : (s.withQueue x).rstLow = s.rstLow := rfl
@[simp] theorem State.withQueue_supplyOk (x : EventQueue) : (s.withQueue x).supplyOk = s.supplyOk := rfl
@[simp] theorem State.withQueue_relay (x : EventQueue) : (s.withQueue x).relay = s.relay := rfl
@[simp] theorem State.withQueue_node (x : EventQueue) : (s.withQueue x).node = s.node := rfl
@[simp] theorem State.withQueue_engine (x : EventQueue) : (s.withQueue x).engine = s.engine := rfl
@[simp] theorem State.withQueue_settings (x : EventQueue) : (s.withQueue x).settings = s.settings := rfl
@[simp] theorem State.withQueue_cells (x : EventQueue) : (s.withQueue x).cells = s.cells := rfl
@[simp] theorem State.withQueue_tables (x : EventQueue) : (s.withQueue x).tables = s.tables := rfl
@[simp] theorem State.withQueue_drive (x : EventQueue) : (s.withQueue x).drive = s.drive := rfl
@[simp] theorem State.withQueue_scanner (x : EventQueue) : (s.withQueue x).scanner = s.scanner := rfl
@[simp] theorem State.withQueue_queue (x : EventQueue) : (s.withQueue x).queue = x := rfl
@[simp] theorem State.withQueue_light (x : EventQueue) : (s.withQueue x).light = s.light := rfl
@[simp] theorem State.withQueue_tone (x : EventQueue) : (s.withQueue x).tone = s.tone := rfl
@[simp] theorem State.withQueue_pending (x : EventQueue) : (s.withQueue x).pending = s.pending := rfl

@[simp] theorem State.withLight_rstLow (x : LightUnit) : (s.withLight x).rstLow = s.rstLow := rfl
@[simp] theorem State.withLight_supplyOk (x : LightUnit) : (s.withLight x).supplyOk = s.supplyOk := rfl
@[simp] theorem State.withLight_relay (x : LightUnit) : (s.withLight x).relay = s.relay := rfl
@[simp] theorem State.withLight_node (x : LightUnit) : (s.withLight x).node = s.node := rfl
@[simp] theorem State.withLight_engine (x : LightUnit) : (s.withLight x).engine = s.engine := rfl
@[simp] theorem State.withLight_settings (x : LightUnit) : (s.withLight x).settings = s.settings := rfl
@[simp] theorem State.withLight_cells (x : LightUnit) : (s.withLight x).cells = s.cells := rfl
@[simp] theorem State.withLight_tables (x : LightUnit) : (s.withLight x).tables = s.tables := rfl
@[simp] theorem State.withLight_drive (x : LightUnit) : (s.withLight x).drive = s.drive := rfl
@[simp] theorem State.withLight_scanner (x : LightUnit) : (s.withLight x).scanner = s.scanner := rfl
@[simp] theorem State.withLight_queue (x : LightUnit) : (s.withLight x).queue = s.queue := rfl
@[simp] theorem State.withLight_light (x : LightUnit) : (s.withLight x).light = x := rfl
@[simp] theorem State.withLight_tone (x : LightUnit) : (s.withLight x).tone = s.tone := rfl
@[simp] theorem State.withLight_pending (x : LightUnit) : (s.withLight x).pending = s.pending := rfl

@[simp] theorem State.withTone_rstLow (x : Option Play) : (s.withTone x).rstLow = s.rstLow := rfl
@[simp] theorem State.withTone_supplyOk (x : Option Play) : (s.withTone x).supplyOk = s.supplyOk := rfl
@[simp] theorem State.withTone_relay (x : Option Play) : (s.withTone x).relay = s.relay := rfl
@[simp] theorem State.withTone_node (x : Option Play) : (s.withTone x).node = s.node := rfl
@[simp] theorem State.withTone_engine (x : Option Play) : (s.withTone x).engine = s.engine := rfl
@[simp] theorem State.withTone_settings (x : Option Play) : (s.withTone x).settings = s.settings := rfl
@[simp] theorem State.withTone_cells (x : Option Play) : (s.withTone x).cells = s.cells := rfl
@[simp] theorem State.withTone_tables (x : Option Play) : (s.withTone x).tables = s.tables := rfl
@[simp] theorem State.withTone_drive (x : Option Play) : (s.withTone x).drive = s.drive := rfl
@[simp] theorem State.withTone_scanner (x : Option Play) : (s.withTone x).scanner = s.scanner := rfl
@[simp] theorem State.withTone_queue (x : Option Play) : (s.withTone x).queue = s.queue := rfl
@[simp] theorem State.withTone_light (x : Option Play) : (s.withTone x).light = s.light := rfl
@[simp] theorem State.withTone_tone (x : Option Play) : (s.withTone x).tone = x := rfl
@[simp] theorem State.withTone_pending (x : Option Play) : (s.withTone x).pending = s.pending := rfl

@[simp] theorem State.withPending_rstLow (x : List Instr) : (s.withPending x).rstLow = s.rstLow := rfl
@[simp] theorem State.withPending_supplyOk (x : List Instr) : (s.withPending x).supplyOk = s.supplyOk := rfl
@[simp] theorem State.withPending_relay (x : List Instr) : (s.withPending x).relay = s.relay := rfl
@[simp] theorem State.withPending_node (x : List Instr) : (s.withPending x).node = s.node := rfl
@[simp] theorem State.withPending_engine (x : List Instr) : (s.withPending x).engine = s.engine := rfl
@[simp] theorem State.withPending_settings (x : List Instr) : (s.withPending x).settings = s.settings := rfl
@[simp] theorem State.withPending_cells (x : List Instr) : (s.withPending x).cells = s.cells := rfl
@[simp] theorem State.withPending_tables (x : List Instr) : (s.withPending x).tables = s.tables := rfl
@[simp] theorem State.withPending_drive (x : List Instr) : (s.withPending x).drive = s.drive := rfl
@[simp] theorem State.withPending_scanner (x : List Instr) : (s.withPending x).scanner = s.scanner := rfl
@[simp] theorem State.withPending_queue (x : List Instr) : (s.withPending x).queue = s.queue := rfl
@[simp] theorem State.withPending_light (x : List Instr) : (s.withPending x).light = s.light := rfl
@[simp] theorem State.withPending_tone (x : List Instr) : (s.withPending x).tone = s.tone := rfl
@[simp] theorem State.withPending_pending (x : List Instr) : (s.withPending x).pending = x := rfl

end Sys2Proof.Machine
end

