-- ==== Sys2Proof/Laws/Engine.lean ====
section
/-! SUPPORT. What the Request Engine does with an item, in each of the ways it can be taken. -/

namespace Sys2Proof.Machine

variable (s : State) (p : Processing) (c : Instr) (code : Byte) (params : List Byte) (serve : State → Served)

/-- An item that is offered is served by its owner and answered (R186 steps 4 and 5). -/
theorem takeItem_offers (h : s.offers p c code params) :
    s.takeItem c serve =
      ((serve s).state.writeReply p (replyItem code (serve s).status (serve s).data)).afterItem
        { p.past params (3 + (serve s).data.length) with resetStop := p.resetStop || (serve s).stop }
        (serve s).stop (serve s).due := by
  obtain ⟨engine, broadcast, item, read, room⟩ := h
  unfold State.takeItem State.processing
  rw [engine]
  simp only [item]
  rw [if_pos read, if_neg (by rw [broadcast]; decide)]
  unfold State.answerItem
  rw [if_pos room]

/-- An item that is executed and does not stop the processing. -/
theorem takeItem_served (t : State) (data : List Byte) (h : s.offers p c code params) (hs : serve s = served t data) :
    s.takeItem c serve = t.answered p code params .ok data := by
  rw [takeItem_offers s p c code params serve h, hs]
  unfold served State.answered
  simp only [Bool.or_false]
  rfl

/-- An item that its owner refuses. -/
theorem takeItem_refused (status : Status) (data : List Byte) (h : s.offers p c code params)
    (hs : serve s = refusedWith s status data) : s.takeItem c serve = s.answered p code params status data := by
  rw [takeItem_offers s p c code params serve h, hs]
  unfold refusedWith State.answered
  simp only [Bool.or_false]
  rfl

/-- An item that fails the room check has no effect and ends the processing (R186 step 2). -/
theorem takeItem_truncated (engine : s.engine = .taking p) (broadcast : p.broadcast = false)
    (item : p.item = .whole code params) (read : requestOf code params = some c)
    (full : p.room < largestReply code params) :
    s.takeItem c serve = s.endProcessing { p with truncated := true } none := by
  unfold State.takeItem State.processing
  rw [engine]
  simp only [item]
  rw [if_pos read, if_neg (by rw [broadcast]; decide)]
  unfold State.answerItem
  rw [if_neg (by omega)]

/-- An item of a broadcast is executed or skipped, without a reply (R193). -/
theorem takeItem_broadcast (h : s.offersBroadcast p c code params) :
    s.takeItem c serve =
      if c.inBroadcast then (serve s).state.afterItem (p.past params 0) (serve s).stop (serve s).due
      else s.passedOver p params := by
  obtain ⟨engine, broadcast, item, read⟩ := h
  unfold State.takeItem State.processing
  rw [engine]
  simp only [item]
  rw [if_pos read, if_pos broadcast]
  unfold State.broadcastItem State.passedOver
  rfl

/-- A request that is not at the parse position has no effect (assumption 9). -/
theorem takeItem_idle (engine : s.processing = none) : s.takeItem c serve = s := by
  unfold State.takeItem
  rw [engine]

end Sys2Proof.Machine
end

