-- ==== Sys2Proof/Laws/Items.lean ====
section
/-! SUPPORT. Two-byte fields and pairs of bytes, taken apart and put together again. -/

namespace Sys2Proof

theorem joinBytes_hiByte_loByte (h : Half) : joinBytes (hiByte h) (loByte h) = h := by
  unfold joinBytes hiByte loByte
  apply BitVec.eq_of_getLsbD_eq
  intro i hi
  rw [BitVec.getLsbD_append]
  by_cases low : i < 8
  · rw [if_pos low, BitVec.getLsbD_extractLsb', Nat.zero_add]; simp [low]
  · rw [if_neg low, BitVec.getLsbD_extractLsb', show 8 + (i - 8) = i by omega]; simp [show i - 8 < 8 by omega]

theorem hiByte_joinBytes (hi lo : Byte) : hiByte (joinBytes hi lo) = hi := by
  unfold joinBytes hiByte
  ext i hi'
  simp only [BitVec.getElem_extractLsb', BitVec.getLsbD_append]
  rw [if_neg (by omega), show 8 + i - 8 = i by omega, BitVec.getLsbD_eq_getElem hi']

theorem loByte_joinBytes (hi lo : Byte) : loByte (joinBytes hi lo) = lo := by
  unfold joinBytes loByte
  ext i hi'
  simp only [BitVec.getElem_extractLsb', BitVec.getLsbD_append]
  rw [if_pos (by omega), Nat.zero_add, BitVec.getLsbD_eq_getElem hi']

theorem bytesOfPairs_length (pairs : List (Byte × Byte)) : (bytesOfPairs pairs).length = 2 * pairs.length := by
  induction pairs with
  | nil => rfl
  | cons pair rest ih => obtain ⟨id, value⟩ := pair; simp only [bytesOfPairs, List.length_cons, ih]; omega

theorem pairsOf_bytesOfPairs (pairs : List (Byte × Byte)) : pairsOf (bytesOfPairs pairs) = some pairs := by
  induction pairs with
  | nil => rfl
  | cons pair rest ih => obtain ⟨id, value⟩ := pair; simp [bytesOfPairs, pairsOf, ih]

theorem bytesOfPairs_of_pairsOf (bytes : List Byte) (pairs : List (Byte × Byte)) (h : pairsOf bytes = some pairs) :
    bytesOfPairs pairs = bytes := by
  induction bytes using pairsOf.induct generalizing pairs with
  | case1 => cases h; rfl
  | case2 => cases h
  | case3 id value rest ih =>
    simp only [pairsOf, Option.map_eq_some_iff] at h
    obtain ⟨pairs', found, rfl⟩ := h
    simp only [bytesOfPairs, ih pairs' found]

/-- A set of table ids in a byte, and back. -/
theorem setByte_reserved (set : BitVec 7) : (set.setWidth 8).getLsbD 7 = false := by
  simp

theorem setByte_low (set : BitVec 7) : (set.setWidth 8).extractLsb' 0 7 = set := by
  ext i hi
  simp [hi, show i < 8 by omega]

theorem lowBits_setByte (p : Byte) (h : p.getLsbD 7 = false) : (p.extractLsb' 0 7).setWidth 8 = p := by
  ext i hi
  simp only [BitVec.getElem_setWidth, BitVec.getLsbD_extractLsb', Nat.zero_add]
  by_cases top : i = 7
  · subst top
    rw [BitVec.getLsbD_eq_getElem (by omega)] at h
    simp [h]
  · simp [show i < 7 by omega, hi]

/-! The form check of each code (section 12.3). -/

theorem requestOf_readStatus (params : List Byte) : requestOf 0x01 params = readStatusForm params := by simp [requestOf]
theorem requestOf_settingRead (params : List Byte) : requestOf 0x02 params = settingReadForm params := by simp [requestOf]
theorem requestOf_settingWrite (params : List Byte) : requestOf 0x03 params = settingWriteForm params := by simp [requestOf]
theorem requestOf_setTime (params : List Byte) : requestOf 0x04 params = setTimeForm params := by simp [requestOf]
theorem requestOf_quiesce (params : List Byte) : requestOf 0x10 params = noParams .quiesce params := by simp [requestOf]
theorem requestOf_resume (params : List Byte) : requestOf 0x11 params = noParams .resume params := by simp [requestOf]
theorem requestOf_nodeReset (params : List Byte) : requestOf 0x12 params = oneParam .nodeReset params := by simp [requestOf]
theorem requestOf_writeCells (params : List Byte) : requestOf 0x20 params = writeCellsForm params := by simp [requestOf]
theorem requestOf_fillCells (params : List Byte) : requestOf 0x21 params = fillCellsForm params := by simp [requestOf]
theorem requestOf_readCells (params : List Byte) : requestOf 0x22 params = readCellsForm params := by simp [requestOf]
theorem requestOf_commit (params : List Byte) : requestOf 0x23 params = oneParam .commit params := by simp [requestOf]
theorem requestOf_tableLoad (params : List Byte) : requestOf 0x30 params = tableLoadForm params := by simp [requestOf]
theorem requestOf_tableRead (params : List Byte) : requestOf 0x31 params = tableReadForm params := by simp [requestOf]
theorem requestOf_tableActivate (params : List Byte) : requestOf 0x32 params = setParam .tableActivate params := by simp [requestOf]
theorem requestOf_tableAbandon (params : List Byte) : requestOf 0x33 params = setParam .tableAbandon params := by simp [requestOf]
theorem requestOf_ackEvents (params : List Byte) : requestOf 0x40 params = oneParam .ackEvents params := by simp [requestOf]
theorem requestOf_toneStart (params : List Byte) : requestOf 0x41 params = oneParam .toneStart params := by simp [requestOf]
theorem requestOf_toneStop (params : List Byte) : requestOf 0x42 params = noParams .toneStop params := by simp [requestOf]

end Sys2Proof
end

