-- ==== Sys2Proof/Laws/KeyFrames.lean ====
section
/-! SUPPORT. What the Key Scanner's operations and the sweep start can change. -/

namespace Sys2Proof.Machine

variable (s : State)

/-! ## Keys: the scanner, the queue and the channel -/

theorem putKey_frame (k : Fin 128) (r : KeyRecord) : s.putKey k r = s.withScanner (s.putKey k r).scanner := rfl

theorem reportDown_frame (p : PressRecord) : s.reportDown p = s.withQueue (s.reportDown p).queue := by
  unfold State.reportDown; split
  · exact submit_frame ..
  · rfl

theorem reportUp_frame (p : Option PressRecord) : s.reportUp p = s.withQueue (s.reportUp p).queue := by
  unfold State.reportUp; split
  · rfl
  · split
    · exact submit_frame ..
    · rfl

theorem pressSilence_frame (p : PressRecord) : s.pressSilence p = s.withTone (s.pressSilence p).tone := by
  unfold State.pressSilence; split
  · exact claimSilence_frame s
  · rfl

theorem pressClick_frame (p : PressRecord) : s.pressClick p = s.withTone (s.pressClick p).tone := by
  unfold State.pressClick; split
  · exact claimClick_frame ..
  · rfl

theorem becomeDown_frame (k : Fin 128) :
    s.becomeDown k =
      ((s.withScanner (s.becomeDown k).scanner).withQueue (s.becomeDown k).queue).withTone (s.becomeDown k).tone := by
  unfold State.becomeDown; rw [pressClick_frame, pressSilence_frame, reportDown_frame]; rfl

theorem becomeUp_frame (k : Fin 128) :
    s.becomeUp k = (s.withScanner (s.becomeUp k).scanner).withQueue (s.becomeUp k).queue := by
  unfold State.becomeUp; rw [reportUp_frame]; rfl

theorem holdKey_frame (k : Fin 128) (d : Debounce) :
    s.holdKey k d = (s.withScanner (s.holdKey k d).scanner).withQueue (s.holdKey k d).queue := by
  unfold State.holdKey; split
  · rfl
  · split
    · rw [submit_frame]; rfl
    · rfl

theorem sampleKey_frame (k : Fin 128) (closed : Bool) :
    s.sampleKey k closed =
      ((s.withScanner (s.sampleKey k closed).scanner).withQueue (s.sampleKey k closed).queue).withTone
        (s.sampleKey k closed).tone := by
  unfold State.sampleKey; simp only []; split
  · split
    · exact becomeDown_frame ..
    · rw [becomeUp_frame]; rfl
  · split
    · rw [holdKey_frame]; rfl
    · rfl

theorem sampleIn_frame (columns : Half) (returns : Byte) (k : Fin 128) :
    s.sampleIn columns returns k =
      ((s.withScanner (s.sampleIn columns returns k).scanner).withQueue (s.sampleIn columns returns k).queue).withTone
        (s.sampleIn columns returns k).tone := by
  unfold State.sampleIn; split
  · exact sampleKey_frame ..
  · rfl

/-- The samples of a run of keys. -/
theorem foldl_sampleIn_frame (columns : Half) (returns : Byte) (l : List (Fin 128)) :
    ∃ scanner queue tone, l.foldl (State.sampleIn columns returns) s =
      ((s.withScanner scanner).withQueue queue).withTone tone := by
  induction l generalizing s with
  | nil => exact ⟨s.scanner, s.queue, s.tone, rfl⟩
  | cons k rest ih =>
    rw [List.foldl_cons]
    obtain ⟨scanner, queue, tone, h⟩ := ih (s.sampleIn columns returns k)
    rw [h, sampleIn_frame]
    exact ⟨scanner, queue, tone, rfl⟩

theorem sampleKeys_frame (columns : Half) (returns : Byte) :
    ∃ scanner queue tone, s.sampleKeys columns returns = ((s.withScanner scanner).withQueue queue).withTone tone :=
  foldl_sampleIn_frame ..

theorem reportWake_frame :
    s.reportWake = ((s.withNode s.reportWake.node).withLight s.reportWake.light).withQueue s.reportWake.queue := by
  unfold State.reportWake; split
  · rw [submit_frame]; rfl
  · rfl

theorem sampleAnyKey_frame (closed : Bool) :
    ∃ scanner node light queue, s.sampleAnyKey closed =
      (((s.withScanner scanner).withNode node).withLight light).withQueue queue := by
  unfold State.sampleAnyKey; split
  · exact ⟨s.scanner, s.node, s.light, s.queue, rfl⟩
  · rename_i d _
    split
    · rw [reportWake_frame]; exact ⟨_, _, _, _, rfl⟩
    · exact ⟨(s.putAnyKey (d.sample closed (s.threshold d.down))).scanner, s.node, s.light, s.queue, rfl⟩

/-- What a sample never changes. -/
theorem takeSample_keeps (columns : Half) (returns : Byte) :
    (s.takeSample columns returns).rstLow = s.rstLow ∧ (s.takeSample columns returns).supplyOk = s.supplyOk ∧
      (s.takeSample columns returns).settings = s.settings ∧ (s.takeSample columns returns).cells = s.cells ∧
      (s.takeSample columns returns).tables = s.tables ∧ (s.takeSample columns returns).drive = s.drive ∧
      (s.takeSample columns returns).relay = s.relay ∧ (s.takeSample columns returns).engine = s.engine ∧
      (s.takeSample columns returns).pending = s.pending := by
  unfold State.takeSample; split
  · exact ⟨rfl, rfl, rfl, rfl, rfl, rfl, rfl, rfl, rfl⟩
  · obtain ⟨scanner, queue, tone, h⟩ := sampleKeys_frame s columns returns
    rw [h]; exact ⟨rfl, rfl, rfl, rfl, rfl, rfl, rfl, rfl, rfl⟩
  · obtain ⟨scanner, node, light, queue, h⟩ := sampleAnyKey_frame s (returns != 0)
    rw [h]; exact ⟨rfl, rfl, rfl, rfl, rfl, rfl, rfl, rfl, rfl⟩

/-! ## The sweep start -/

theorem transfer_frame : s.transfer = (s.withCells s.transfer.cells).withNode s.transfer.node := by
  unfold State.transfer; split <;> rfl

theorem transfer_fields (t : State) :
    t.transfer.cells = (if t.cells.pendingValid then t.cells.transfer else t.cells) ∧
      t.transfer.node = (if t.cells.pendingValid then { t.node with fallbackHold := false } else t.node) := by
  unfold State.transfer; split <;> exact ⟨rfl, rfl⟩

/-- The Light Sense Unit at a sweep start does not look at the Multiplex Driver. -/
theorem lightSweep_withDrive (d : Drive) : (s.withDrive d).lightSweep = s.lightSweep.withDrive d := by
  have same : (s.withDrive d).light.state = s.light.state := rfl
  unfold State.lightSweep
  rw [same]
  cases s.light.state
  · rfl
  · rfl
  · rfl
  · rfl
  · change (if s.windowCloses then (s.withDrive d).closeWindow
      else (s.withDrive d).withLight { s.light with windowSweeps := s.light.windowSweeps + 1 }) = _
    simp only []
    split <;> rfl

/-! ## The turns of a sweep start -/

theorem lightTurn_frame (ending : State) :
    s.lightTurn ending =
      (s.withLight (s.withTables ending.tables).lightSweep.light).withQueue (s.lightTurn ending).queue := by
  have h := submitSome_frame (s.withTables ending.tables).lightSweep (s.withTables ending.tables).lightSweepEvent
  rw [lightSweep_frame (s.withTables ending.tables)] at h
  have e : s.lightTurn ending =
      ((s.withTables ending.tables).lightSweep.submitSome (s.withTables ending.tables).lightSweepEvent).withTables
        s.tables := rfl
  rw [e, lightSweep_frame (s.withTables ending.tables), h]; rfl

theorem cellsTurn_frame (ending : State) :
    ending.takeTurn s .cells =
      ((s.withCells s.transfer.cells).withNode s.transfer.node).withQueue (ending.takeTurn s .cells).queue := by
  have e : ending.takeTurn s .cells = s.transfer.submitSome s.shownEvent := rfl
  have h := submitSome_frame s.transfer s.shownEvent
  rw [transfer_frame] at h
  rw [e, transfer_frame, h]; rfl

theorem tablesTurn_frame (ending : State) :
    ending.takeTurn s .tables =
      (s.withTables s.tables.activatePending).withQueue (ending.takeTurn s .tables).queue := submitSome_frame ..

/-- What no turn changes. -/
theorem takeTurn_keeps (ending : State) (turn : Turn) :
    (ending.takeTurn s turn).rstLow = s.rstLow ∧ (ending.takeTurn s turn).supplyOk = s.supplyOk ∧
      (ending.takeTurn s turn).settings = s.settings ∧ (ending.takeTurn s turn).drive = s.drive ∧
      (ending.takeTurn s turn).relay = s.relay ∧ (ending.takeTurn s turn).engine = s.engine ∧
      (ending.takeTurn s turn).pending = s.pending := by
  cases turn with
  | light =>
    rw [show ending.takeTurn s .light = s.lightTurn ending from rfl, lightTurn_frame]
    exact ⟨rfl, rfl, rfl, rfl, rfl, rfl, rfl⟩
  | cells => rw [cellsTurn_frame]; exact ⟨rfl, rfl, rfl, rfl, rfl, rfl, rfl⟩
  | tables => rw [tablesTurn_frame]; exact ⟨rfl, rfl, rfl, rfl, rfl, rfl, rfl⟩
  | sample returns =>
    obtain ⟨h1, h2, h3, _, _, h6, h7, h8, h9⟩ := takeSample_keeps s ending.scanDrive returns
    exact ⟨h1, h2, h3, h6, h7, h8, h9⟩

/-- The planes change in the Cell Store's turn alone. -/
theorem takeTurn_cells (ending : State) (turn : Turn) :
    (ending.takeTurn s turn).cells =
      if turn = .cells then (if s.cells.pendingValid then s.cells.transfer else s.cells) else s.cells := by
  cases turn with
  | light => rw [show ending.takeTurn s .light = s.lightTurn ending from rfl, lightTurn_frame]; rfl
  | cells => rw [cellsTurn_frame]; exact (transfer_fields s).1
  | tables => rw [tablesTurn_frame]; rfl
  | sample returns => exact (takeSample_keeps s ending.scanDrive returns).2.2.2.1

/-- The tables change in the Table Store's turn alone. -/
theorem takeTurn_tables (ending : State) (turn : Turn) :
    (ending.takeTurn s turn).tables = if turn = .tables then s.tables.activatePending else s.tables := by
  cases turn with
  | light => rw [show ending.takeTurn s .light = s.lightTurn ending from rfl, lightTurn_frame]; rfl
  | cells => rw [cellsTurn_frame]; rfl
  | tables => rw [tablesTurn_frame]; rfl
  | sample returns => exact (takeSample_keeps s ending.scanDrive returns).2.2.2.2.1

/-- What no run of turns changes. -/
theorem foldl_takeTurn_keeps (ending : State) (turns : List Turn) :
    (turns.foldl ending.takeTurn s).rstLow = s.rstLow ∧ (turns.foldl ending.takeTurn s).supplyOk = s.supplyOk ∧
      (turns.foldl ending.takeTurn s).settings = s.settings ∧ (turns.foldl ending.takeTurn s).drive = s.drive ∧
      (turns.foldl ending.takeTurn s).relay = s.relay ∧ (turns.foldl ending.takeTurn s).engine = s.engine ∧
      (turns.foldl ending.takeTurn s).pending = s.pending := by
  induction turns generalizing s with
  | nil => exact ⟨rfl, rfl, rfl, rfl, rfl, rfl, rfl⟩
  | cons turn rest ih =>
    obtain ⟨h1, h2, h3, h4, h5, h6, h7⟩ := ih (ending.takeTurn s turn)
    obtain ⟨k1, k2, k3, k4, k5, k6, k7⟩ := takeTurn_keeps s ending turn
    exact ⟨h1.trans k1, h2.trans k2, h3.trans k3, h4.trans k4, h5.trans k5, h6.trans k6, h7.trans k7⟩

theorem foldl_takeTurn_cells (ending : State) (turns : List Turn) (count : turns.count .cells ≤ 1) :
    (turns.foldl ending.takeTurn s).cells =
      if .cells ∈ turns then (if s.cells.pendingValid then s.cells.transfer else s.cells) else s.cells := by
  induction turns generalizing s with
  | nil => rfl
  | cons turn rest ih =>
    rw [List.count_cons] at count
    rw [List.foldl_cons, ih _ (by omega), takeTurn_cells]
    by_cases h : turn = .cells
    · subst h
      have absent : Turn.cells ∉ rest := fun m => by
        have := List.count_pos_iff.mpr m
        simp at count; omega
      simp [absent]
    · have same : (Turn.cells ∈ turn :: rest) = (Turn.cells ∈ rest) := by simp [Ne.symm h]
      rw [if_neg h]; simp only [same]

theorem foldl_takeTurn_tables (ending : State) (turns : List Turn) (count : turns.count .tables ≤ 1) :
    (turns.foldl ending.takeTurn s).tables =
      if .tables ∈ turns then s.tables.activatePending else s.tables := by
  induction turns generalizing s with
  | nil => rfl
  | cons turn rest ih =>
    rw [List.count_cons] at count
    rw [List.foldl_cons, ih _ (by omega), takeTurn_tables]
    by_cases h : turn = .tables
    · subst h
      have absent : Turn.tables ∉ rest := fun m => by
        have := List.count_pos_iff.mpr m
        simp at count; omega
      simp [absent]
    · have same : (Turn.tables ∈ turn :: rest) = (Turn.tables ∈ rest) := by simp [Ne.symm h]
      rw [if_neg h]; simp only [same]

/-- Each block has one turn at a sweep start. -/
theorem sweepTurns_once (order : SubmitOrder) (late : Option LateSample) :
    (sweepTurns order late).count .cells = 1 ∧ (sweepTurns order late).count .tables = 1 := by
  cases late with
  | none => cases order <;> decide
  | some late =>
    obtain ⟨returns, after⟩ := late
    match after with
    | 0 => cases order <;> exact ⟨rfl, rfl⟩
    | 1 => cases order <;> exact ⟨rfl, rfl⟩
    | 2 => cases order <;> exact ⟨rfl, rfl⟩

/-- What each block but the Key Scanner, the Tone Unit, the Light Sense Unit, the queue and Node Control holds after a
sweep start, whether or not the sweep's last sample is taken in it. -/
theorem sweepChanges_fields (order : SubmitOrder) (late : Option LateSample) :
    let t := s.sweepChanges (sweepTurns order late)
    t.rstLow = s.rstLow ∧ t.supplyOk = s.supplyOk ∧ t.relay = s.relay ∧ t.engine = s.engine ∧
      t.settings = s.settings ∧ t.pending = s.pending ∧
      t.drive = { s.drive with sweepCounter := s.drive.sweepCounter + 1, phase := 1 } ∧
      t.cells = (if s.cells.pendingValid then s.cells.transfer else s.cells) ∧
      t.tables = s.tables.activatePending := by
  obtain ⟨c, b⟩ := sweepTurns_once order late
  obtain ⟨h1, h2, h3, h4, h5, h6, h7⟩ := foldl_takeTurn_keeps s.countSweep s (sweepTurns order late)
  have hc := foldl_takeTurn_cells s.countSweep s (sweepTurns order late) (by omega)
  have ht := foldl_takeTurn_tables s.countSweep s (sweepTurns order late) (by omega)
  rw [if_pos (List.count_pos_iff.mp (by omega))] at hc ht
  exact ⟨h1, h2, h5, h6, h3, h7, h4, hc, ht⟩

/-- R121: the Light Sense Unit at a sweep start, from its own state, LIGHT_WINDOW and the LIGHT table. -/
theorem lightSweep_light :
    s.lightSweep.light =
      match s.light.state with
      | .stopped => s.light
      | .edgeWait => s.light
      | .periodCount => s.light
      | .windowWait => { s.light with state := .windowCount, count := 0, windowSweeps := 0 }
      | .windowCount =>
        if s.light.windowSweeps + 1 == (byteAt s.settings (settingId .lightWindow)).toNat then
          { state := .windowCount, count := 0, windowSweeps := 0, result := s.light.count
            overflow := s.light.count == 65535
            level := formLevel s.tables.light.active s.light.level s.light.count }
        else { s.light with windowSweeps := s.light.windowSweeps + 1 } := by
  unfold State.lightSweep
  cases h : s.light.state <;> try rfl
  have closes : s.windowCloses = (s.light.windowSweeps + 1 == (byteAt s.settings (settingId .lightWindow)).toNat) := by
    unfold State.windowCloses; rw [h]; rfl
  simp only [closes]
  split <;> rfl

theorem lightSweep_congr (t : State) (light : s.light = t.light) (settings : s.settings = t.settings)
    (tables : s.tables = t.tables) : s.lightSweep.light = t.lightSweep.light := by
  rw [lightSweep_light, lightSweep_light, light, settings, tables]

/-- What a block's turn does to Node Control, the Light Sense Unit and the Tone Unit. -/
theorem takeTurn_block (ending : State) (turn : Turn) (block : ∀ returns, turn ≠ .sample returns)
    (settings : s.settings = ending.settings) :
    (ending.takeTurn s turn).tone = s.tone ∧ (ending.takeTurn s turn).scanner = s.scanner ∧
      (ending.takeTurn s turn).node =
        (if turn = .cells then (if s.cells.pendingValid then { s.node with fallbackHold := false } else s.node)
          else s.node) ∧
      (ending.takeTurn s turn).light =
        (if turn = .light then (ending.withLight s.light).lightSweep.light else s.light) := by
  cases turn with
  | light =>
    rw [show ending.takeTurn s .light = s.lightTurn ending from rfl, lightTurn_frame]
    exact ⟨rfl, rfl, rfl, lightSweep_congr _ _ rfl settings rfl⟩
  | cells => rw [cellsTurn_frame]; exact ⟨rfl, rfl, (transfer_fields s).2, rfl⟩
  | tables => rw [tablesTurn_frame]; exact ⟨rfl, rfl, rfl, rfl⟩
  | sample returns => exact absurd rfl (block returns)

/-- What a run of blocks' turns does to them. -/
theorem foldl_takeTurn_blocks (ending : State) (turns : List Turn)
    (blocks : ∀ turn ∈ turns, ∀ returns, turn ≠ .sample returns) (cells : turns.count .cells ≤ 1)
    (light : turns.count .light ≤ 1) (settings : s.settings = ending.settings) :
    (turns.foldl ending.takeTurn s).tone = s.tone ∧ (turns.foldl ending.takeTurn s).scanner = s.scanner ∧
      (turns.foldl ending.takeTurn s).node =
        (if .cells ∈ turns then (if s.cells.pendingValid then { s.node with fallbackHold := false } else s.node)
          else s.node) ∧
      (turns.foldl ending.takeTurn s).light =
        (if .light ∈ turns then (ending.withLight s.light).lightSweep.light else s.light) := by
  induction turns generalizing s with
  | nil => exact ⟨rfl, rfl, rfl, rfl⟩
  | cons turn rest ih =>
    rw [List.count_cons] at cells light
    obtain ⟨tone, scanner, node, level⟩ := takeTurn_block s ending turn (blocks turn (by simp)) settings
    obtain ⟨tone', scanner', node', level'⟩ := ih (ending.takeTurn s turn)
      (fun x hx => blocks x (List.mem_cons_of_mem _ hx)) (by omega) (by omega)
      ((takeTurn_keeps s ending turn).2.2.1.trans settings)
    refine ⟨tone'.trans tone, scanner'.trans scanner, ?_, ?_⟩
    · rw [List.foldl_cons, node', node, takeTurn_cells]
      by_cases h : turn = .cells
      · have absent : Turn.cells ∉ rest := fun m => by
          have := List.count_pos_iff.mpr m
          simp [h] at cells; omega
        simp [h, absent]
      · have same : (Turn.cells ∈ turn :: rest) = (Turn.cells ∈ rest) := by simp [Ne.symm h]
        simp only [same, if_neg h]
    · rw [List.foldl_cons, level', level]
      by_cases h : turn = .light
      · have absent : Turn.light ∉ rest := fun m => by
          have := List.count_pos_iff.mpr m
          simp [h] at light; omega
        simp [h, absent]
      · have same : (Turn.light ∈ turn :: rest) = (Turn.light ∈ rest) := by simp [Ne.symm h]
        simp only [same, if_neg h]

/-- Node Control, the Light Sense Unit, the Tone Unit and the Key Scanner after the changes of a sweep start whose last
sample has been taken. -/
theorem sweepChanges_taken (order : SubmitOrder) :
    let t := s.sweepChanges (sweepTurns order none)
    t.tone = s.tone ∧ t.light = s.lightSweep.light ∧
      t.node = (if s.cells.pendingValid then { s.node with fallbackHold := false } else s.node) ∧
      t.scanner =
        (if inSet s.tables.pendingSet .scan then s.scanner.restart s.tables.activatePending.scan.active
          else s.scanner).enter s.modeDue := by
  have blocks : ∀ turn ∈ sweepTurns order none, ∀ returns, turn ≠ .sample returns := by
    cases order <;> (intro turn h returns; revert turn; simp [sweepTurns, blocksInOrder])
  have once : (sweepTurns order none).count .light = 1 := by cases order <;> rfl
  obtain ⟨tone, scanner, node, light⟩ := foldl_takeTurn_blocks s.countSweep s (sweepTurns order none) blocks
    (by rw [(sweepTurns_once order none).1]) (by rw [once]) rfl
  rw [if_pos (List.count_pos_iff.mp (by rw [(sweepTurns_once order none).1]; decide))] at node
  rw [if_pos (List.count_pos_iff.mp (by rw [once]; decide))] at light
  obtain ⟨_, _, settings, _⟩ := foldl_takeTurn_keeps s.countSweep s (sweepTurns order none)
  have tables := foldl_takeTurn_tables s.countSweep s (sweepTurns order none) (by rw [(sweepTurns_once order none).2])
  rw [if_pos (List.count_pos_iff.mp (by rw [(sweepTurns_once order none).2]; decide))] at tables
  refine ⟨tone, light, node, ?_⟩
  change ((if inSet s.tables.pendingSet .scan then State.scanner _ |>.restart _ else _).enter (State.modeDue _)) = _
  rw [scanner, tables]
  have state : ((sweepTurns order none).foldl s.takeTurn s.countSweep).node.state = s.node.state := by
    rw [node]; split <;> rfl
  have due : ((sweepTurns order none).foldl s.takeTurn s.countSweep).modeDue = s.modeDue := by
    unfold State.modeDue State.setting
    rw [state, settings]; rfl
  rw [due]; rfl

/-- What each block holds after a sweep start, from the changes made there. -/
theorem sweepStart_eq (order : SubmitOrder) (late : Option LateSample) :
    s.sweepStart order late =
      (s.sweepChanges (sweepTurns order late)).withDrive (s.sweepChanges (sweepTurns order late)).beginSweep.drive := rfl

end Sys2Proof.Machine
end

