-- ==== Sys2Proof/Laws/Queue.lean ====
section
/-! SUPPORT. The event queue: appending, dropping, aging, filling and acknowledging keep its order and its bounds. -/

namespace Sys2Proof.Machine

/-! ## SENT before UNSENT -/

theorem sentFirst_cons (e : Entry) (rest : List Entry) :
    sentFirst (e :: rest) ↔ (e.isSent = false → ∀ e' ∈ rest, e'.isSent = false) ∧ sentFirst rest := Iff.rfl

theorem sentFirst_of_all_unsent (l : List Entry) (h : ∀ e ∈ l, e.isSent = false) : sentFirst l := by
  induction l with
  | nil => trivial
  | cons e rest ih =>
    exact ⟨fun _ e' he' => h e' (List.mem_cons_of_mem _ he'), ih fun e' he' => h e' (List.mem_cons_of_mem _ he')⟩

theorem sentFirst_append_unsent (l : List Entry) (e : Entry) (h : sentFirst l) (unsent : e.isSent = false) :
    sentFirst (l ++ [e]) := by
  induction l with
  | nil => exact ⟨fun _ _ h => (by cases h), trivial⟩
  | cons x rest ih =>
    refine ⟨?_, ih h.2⟩
    intro hx e' he'
    rcases List.mem_append.mp he' with he' | he'
    · exact h.1 hx e' he'
    · rw [List.mem_singleton.mp he']; exact unsent

theorem sentFirst_suffix (before rest : List Entry) (h : sentFirst (before ++ rest)) : sentFirst rest := by
  induction before with
  | nil => exact h
  | cons e before ih => exact ih h.2

/-- A change that keeps every delivery state keeps SENT before UNSENT. -/
theorem sentFirst_map (f : Entry → Entry) (same : ∀ e, (f e).isSent = e.isSent) (l : List Entry) (h : sentFirst l) :
    sentFirst (l.map f) := by
  induction l with
  | nil => trivial
  | cons e rest ih =>
    refine ⟨?_, ih h.2⟩
    intro he e' he'
    obtain ⟨x, hx, rfl⟩ := List.mem_map.mp he'
    rw [same] at he ⊢
    exact h.1 he x hx

/-! ## Sequence numbers -/

theorem seqsFrom_append (l : List Entry) (next : Byte) (e : Entry) (h : seqsFrom l next) (he : e.seq = next) :
    seqsFrom (l ++ [e]) (next + 1) := by
  induction l with
  | nil => exact congrArg (· + 1) he
  | cons x rest ih =>
    cases rest with
    | nil => exact ⟨h.trans he.symm, congrArg (· + 1) he⟩
    | cons y rest => exact ⟨h.1, ih h.2⟩

theorem seqsFrom_suffix (before rest : List Entry) (next : Byte) (h : seqsFrom (before ++ rest) next) :
    seqsFrom rest next := by
  induction before with
  | nil => exact h
  | cons e before ih =>
    cases hb : before ++ rest with
    | nil => obtain ⟨_, rfl⟩ := List.append_eq_nil_iff.mp hb; trivial
    | cons y tail => rw [List.cons_append, hb] at h; rw [hb] at ih; exact ih h.2

/-- A change that keeps every seq keeps the run of seqs. -/
theorem seqsFrom_map (f : Entry → Entry) (same : ∀ e, (f e).seq = e.seq) (l : List Entry) (next : Byte)
    (h : seqsFrom l next) : seqsFrom (l.map f) next := by
  induction l with
  | nil => trivial
  | cons e rest ih =>
    cases rest with
    | nil => exact (congrArg (· + 1) (same e)).trans h
    | cons y rest => exact ⟨by rw [same, same]; exact h.1, ih h.2⟩

/-! ## The tail -/

theorem mapTail_append (f : Entry → Entry) (before : List Entry) (tail : Entry) :
    mapTail f (before ++ [tail]) = before ++ [f tail] := by
  induction before with
  | nil => rfl
  | cons e before ih =>
    cases before with
    | nil => rfl
    | cons y rest => exact congrArg (e :: ·) ih

theorem eq_append_of_getLast? (l : List Entry) (tail : Entry) (h : l.getLast? = some tail) :
    ∃ before, l = before ++ [tail] := by
  rw [List.getLast?_eq_some_iff] at h
  exact h

/-! ## Filling -/

theorem markFirstUnsent_length (l : List Entry) : (markFirstUnsent l).length = l.length := by
  induction l with
  | nil => rfl
  | cons e rest ih => unfold markFirstUnsent; split <;> simp [ih]

theorem markFirstUnsent_sentFirst (l : List Entry) (h : sentFirst l) : sentFirst (markFirstUnsent l) := by
  induction l with
  | nil => trivial
  | cons e rest ih =>
    unfold markFirstUnsent
    split
    · rename_i sent
      exact ⟨fun unsent => absurd (sent.symm.trans unsent) (by decide), ih h.2⟩
    · exact ⟨fun unsent => absurd unsent (by simp [Entry.isSent]), h.2⟩

theorem seqsFrom_cons_congr (e e' : Entry) (rest rest' : List Entry) (next : Byte) (he : e'.seq = e.seq)
    (head : (rest'.head?.map Entry.seq) = rest.head?.map Entry.seq) (h : seqsFrom (e :: rest) next)
    (hr : seqsFrom rest' next) : seqsFrom (e' :: rest') next := by
  cases rest with
  | nil =>
    cases rest' with
    | nil => exact (congrArg (· + 1) he).trans h
    | cons y' r' => cases head
  | cons y r =>
    cases rest' with
    | nil => cases head
    | cons y' r' =>
      refine ⟨?_, hr⟩
      have same : y'.seq = y.seq := Option.some.inj head
      rw [he, same]; exact h.1

theorem seqsFrom_tail (e : Entry) (rest : List Entry) (next : Byte) (h : seqsFrom (e :: rest) next) :
    seqsFrom rest next := seqsFrom_suffix [e] rest next h

theorem markFirstUnsent_head (l : List Entry) : (markFirstUnsent l).head?.map Entry.seq = l.head?.map Entry.seq := by
  cases l with
  | nil => rfl
  | cons e rest => unfold markFirstUnsent; split <;> rfl

theorem markFirstUnsent_seqs (l : List Entry) (next : Byte) (h : seqsFrom l next) :
    seqsFrom (markFirstUnsent l) next := by
  induction l with
  | nil => trivial
  | cons e rest ih =>
    have tail := ih (seqsFrom_tail e rest next h)
    unfold markFirstUnsent
    split
    · exact seqsFrom_cons_congr e e rest _ next rfl (markFirstUnsent_head rest) h tail
    · exact seqsFrom_cons_congr e _ rest rest next rfl rfl h (seqsFrom_tail e rest next h)

theorem markFirstUnsent_ordinary (l : List Entry) :
    (markFirstUnsent l).countP Entry.ordinary = l.countP Entry.ordinary := by
  induction l with
  | nil => rfl
  | cons e rest ih =>
    unfold markFirstUnsent
    split
    · rw [List.countP_cons, List.countP_cons, ih]
    · rw [List.countP_cons, List.countP_cons]; rfl

/-- Marking the entry at the send point leaves one UNSENT entry fewer. -/
theorem markFirstUnsent_unsent (l : List Entry) :
    (markFirstUnsent l).countP (fun e => !e.isSent) = l.countP (fun e => !e.isSent) - 1 := by
  induction l with
  | nil => rfl
  | cons e rest ih =>
    unfold markFirstUnsent
    by_cases sent : e.isSent = true
    · rw [if_pos sent, List.countP_cons_of_neg (by simp [sent]), List.countP_cons_of_neg (by simp [sent]), ih]
    · rw [if_neg sent, List.countP_cons_of_neg (by simp [Entry.isSent]), List.countP_cons_of_pos (by simp [sent])]
      omega

/-! ## The whole queue -/

theorem countP_ordinary_le (l : List Entry) : l.countP Entry.ordinary ≤ l.length := List.countP_le_length

/-- R97, R99: an entry appended where there is a place for its kind. -/
theorem append_ordered (q : EventQueue) (k : EventKind) (a : Byte) (time : Half) (h : q.ordered)
    (place : q.entries.length < Config.queuePlaces)
    (ordinary : k ≠ .lost → q.entries.countP Entry.ordinary < Config.ordinaryPlaces) :
    (q.append k a time).ordered := by
  obtain ⟨⟨len, ord⟩, seqs, sent, loss, held⟩ := h
  refine ⟨⟨?_, ?_⟩, ?_, ?_, loss, ?_⟩
  · change (q.entries ++ [_]).length ≤ _
    rw [List.length_append, List.length_singleton]; omega
  · change (q.entries ++ [_]).countP _ ≤ _
    rw [List.countP_append, List.countP_singleton]
    by_cases lost : k = .lost
    · subst lost; simpa [Entry.ordinary] using ord
    · have := ordinary lost
      split <;> omega
  · exact seqsFrom_append _ _ _ seqs rfl
  · exact sentFirst_append_unsent _ _ sent rfl
  · intro _; exact held place

/-- R101: a drop is counted and the order stays. -/
theorem drop_ordered (q : EventQueue) (time : Half) (h : q.ordered) : (q.drop time).ordered := by
  have h0 := h
  obtain ⟨⟨len, ord⟩, seqs, sent, loss, held⟩ := h
  unfold EventQueue.drop
  split
  · rename_i absorbs
    cases tailEq : q.entries.getLast? with
    | none => rw [tailEq] at absorbs; cases absorbs
    | some tail =>
      obtain ⟨before, eq⟩ := eq_append_of_getLast? _ _ tailEq
      have new : mapTail Entry.absorb q.entries = before ++ [tail.absorb] := by rw [eq, mapTail_append]
      have ordinary : tail.absorb.ordinary = tail.ordinary := rfl
      refine ⟨⟨?_, ?_⟩, ?_, ?_, loss, ?_⟩
      · change (mapTail Entry.absorb q.entries).length ≤ _
        rw [new]; rw [eq] at len; simpa using len
      · change (mapTail Entry.absorb q.entries).countP _ ≤ _
        rw [new]; rw [eq] at ord
        rw [List.countP_append, List.countP_singleton] at ord ⊢
        rw [ordinary]; exact ord
      · change seqsFrom (mapTail Entry.absorb q.entries) q.nextSeq
        rw [new]
        rw [eq] at seqs
        clear new tailEq absorbs eq len ord sent held h0
        induction before with
        | nil => exact seqs
        | cons x before ih =>
          cases before with
          | nil => exact ⟨seqs.1, seqs.2⟩
          | cons y before => exact ⟨seqs.1, ih seqs.2⟩
      · change sentFirst (mapTail Entry.absorb q.entries)
        rw [new]; rw [eq] at sent
        clear new tailEq absorbs eq len ord seqs held h0
        induction before with
        | nil => exact ⟨fun _ _ h => (by cases h), trivial⟩
        | cons x before ih =>
          refine ⟨?_, ih sent.2⟩
          intro unsent e' he'
          rcases List.mem_append.mp he' with he' | he'
          · exact sent.1 unsent e' (List.mem_append_left _ he')
          · rw [List.mem_singleton.mp he']
            exact sent.1 unsent tail (List.mem_append_right _ (List.mem_singleton_self _))
      · intro short
        apply held
        change (mapTail Entry.absorb q.entries).length < _ at short
        rw [new] at short; rw [eq]; simpa using short
  · split
    · rename_i place
      exact append_ordered q .lost 1 time h0 place (fun h => absurd rfl h)
    · rename_i full
      refine ⟨⟨len, ord⟩, seqs, sent, Nat.min_le_left _ _, ?_⟩
      intro short; exact absurd short full

/-- R100: a submission keeps the queue's order and bounds. -/
theorem take_ordered (q : EventQueue) (k : EventKind) (a : Byte) (time : Half) (h : q.ordered) :
    (q.take k a time).ordered := by
  unfold EventQueue.take
  split
  · rename_i room
    unfold EventQueue.hasRoom at room
    simp only [Bool.and_eq_true, decide_eq_true_eq] at room
    exact append_ordered q k a time h room.2 (fun _ => room.1)
  · exact drop_ordered q time h

theorem submit_ordered (s : State) (k : EventKind) (a : Byte) (h : s.queue.ordered) : (s.submit k a).queue.ordered := by
  unfold State.submit
  split
  · exact h
  · exact take_ordered _ _ _ _ h

theorem submitSome_ordered (s : State) (o : Option (EventKind × Byte)) (h : s.queue.ordered) :
    (s.submitSome o).queue.ordered := by
  cases o with
  | none => exact h
  | some event => exact submit_ordered _ _ _ h

theorem age_isSent (e : Entry) : e.age.isSent = e.isSent := by
  obtain ⟨seq, kind, argument, time, delivery⟩ := e
  cases delivery <;> rfl

theorem age_seq (e : Entry) : e.age.seq = e.seq := by
  unfold Entry.age; cases e.delivery <;> rfl

theorem age_ordinary (e : Entry) : e.age.ordinary = e.ordinary := by
  unfold Entry.age Entry.ordinary; cases e.delivery <;> rfl

/-- R107: aging. -/
theorem ageAll_ordered (q : EventQueue) (h : q.ordered) : q.ageAll.ordered := by
  obtain ⟨⟨len, ord⟩, seqs, sent, loss, held⟩ := h
  refine ⟨⟨?_, ?_⟩, seqsFrom_map _ age_seq _ _ seqs, sentFirst_map _ age_isSent _ sent, loss, ?_⟩
  · change (q.entries.map Entry.age).length ≤ _; rw [List.length_map]; exact len
  · change (q.entries.map Entry.age).countP _ ≤ _
    rw [List.countP_map, show Entry.ordinary ∘ Entry.age = Entry.ordinary from funext age_ordinary]; exact ord
  · intro short; apply held
    change (q.entries.map Entry.age).length < _ at short; rwa [List.length_map] at short

/-- R107: a go-back. -/
theorem unsendAll_ordered (q : EventQueue) (h : q.ordered) : q.unsendAll.ordered := by
  obtain ⟨⟨len, ord⟩, seqs, sent, loss, held⟩ := h
  refine ⟨⟨?_, ?_⟩, seqsFrom_map Entry.unsend (fun _ => rfl) _ _ seqs, ?_, loss, ?_⟩
  · change (q.entries.map Entry.unsend).length ≤ _; rw [List.length_map]; exact len
  · change (q.entries.map Entry.unsend).countP _ ≤ _
    rw [List.countP_map, show Entry.ordinary ∘ Entry.unsend = Entry.ordinary from rfl]; exact ord
  · apply sentFirst_of_all_unsent
    intro e he
    change e ∈ q.entries.map Entry.unsend at he
    obtain ⟨x, _, rfl⟩ := List.mem_map.mp he
    rfl
  · intro short; apply held
    change (q.entries.map Entry.unsend).length < _ at short; rwa [List.length_map] at short

theorem ageAndGoBack_ordered (q : EventQueue) (n : Nat) (h : q.ordered) : (q.ageAndGoBack n).ordered := by
  unfold EventQueue.ageAndGoBack
  split
  · exact unsendAll_ordered _ (ageAll_ordered _ h)
  · exact ageAll_ordered _ h

theorem markFirst_ordered (q : EventQueue) (h : q.ordered) :
    EventQueue.ordered { q with entries := markFirstUnsent q.entries } := by
  obtain ⟨⟨len, ord⟩, seqs, sent, loss, held⟩ := h
  refine ⟨⟨?_, ?_⟩, markFirstUnsent_seqs _ _ seqs, markFirstUnsent_sentFirst _ sent, loss, ?_⟩
  · change (markFirstUnsent q.entries).length ≤ _; rw [markFirstUnsent_length]; exact len
  · change (markFirstUnsent q.entries).countP _ ≤ _; rw [markFirstUnsent_ordinary]; exact ord
  · intro short; apply held
    change (markFirstUnsent q.entries).length < _ at short; rwa [markFirstUnsent_length] at short

/-- R108: filling keeps the queue's order and bounds. -/
theorem fillSlots_ordered (address : Byte) (slots at_ quota : Nat) (bytes : List Byte) (q : EventQueue)
    (h : q.ordered) : (fillSlots address slots at_ quota bytes q).2.ordered := by
  induction slots generalizing at_ quota bytes q with
  | zero => exact h
  | succ slots ih =>
    unfold fillSlots
    split
    · exact h
    · split
      · exact h
      · split
        · exact ih _ _ _ _ (markFirst_ordered q h)
        · exact ih _ _ _ _ h

theorem fillSlots_length (address : Byte) (slots at_ quota : Nat) (bytes : List Byte) (q : EventQueue) :
    (fillSlots address slots at_ quota bytes q).1.length = bytes.length := by
  induction slots generalizing at_ quota bytes q with
  | zero => rfl
  | succ slots ih =>
    unfold fillSlots
    split
    · rfl
    · split
      · rfl
      · split
        · rw [ih, overwrite_length]
        · rw [ih]

/-! ## A key sample and a sweep start -/

theorem sampleKey_ordered (s : State) (k : Fin 128) (closed : Bool) (h : s.queue.ordered) :
    (s.sampleKey k closed).queue.ordered := by
  unfold State.sampleKey
  simp only []
  split
  · split
    · unfold State.becomeDown State.reportDown
      rw [pressClick_frame, pressSilence_frame]
      change (State.queue (if _ then _ else _)).ordered
      split
      · exact submit_ordered _ _ _ h
      · exact h
    · unfold State.becomeUp State.reportUp
      split
      · exact h
      · split
        · exact submit_ordered _ _ _ h
        · exact h
  · split
    · unfold State.holdKey
      split
      · exact h
      · split
        · exact submit_ordered _ _ _ h
        · exact h
    · exact h

theorem foldl_sampleIn_ordered (s : State) (columns : Half) (returns : Byte) (l : List (Fin 128))
    (h : s.queue.ordered) : (l.foldl (State.sampleIn columns returns) s).queue.ordered := by
  induction l generalizing s with
  | nil => exact h
  | cons k rest ih =>
    refine ih _ ?_
    unfold State.sampleIn
    split
    · exact sampleKey_ordered _ _ _ h
    · exact h

/-- R71, R88: a sample keeps the queue's order and bounds. -/
theorem takeSample_ordered (s : State) (columns : Half) (returns : Byte) (h : s.queue.ordered) :
    (s.takeSample columns returns).queue.ordered := by
  unfold State.takeSample
  split
  · exact h
  · exact foldl_sampleIn_ordered _ _ _ _ h
  · unfold State.sampleAnyKey
    split
    · exact h
    · split
      · unfold State.reportWake
        split
        · exact submit_ordered _ _ _ h
        · exact h
      · exact h

theorem takeTurn_ordered (s ending : State) (turn : Turn) (h : s.queue.ordered) :
    (ending.takeTurn s turn).queue.ordered := by
  cases turn with
  | light =>
    refine submitSome_ordered (s.withTables ending.tables).lightSweep _ ?_
    rw [lightSweep_frame]; exact h
  | cells =>
    refine submitSome_ordered s.transfer _ ?_
    rw [transfer_frame]; exact h
  | tables => exact submitSome_ordered s.activateTables _ h
  | sample returns => exact takeSample_ordered _ _ _ h

/-- A sweep start keeps the queue's order and bounds. -/
theorem sweepStart_ordered (s : State) (order : SubmitOrder) (late : Option LateSample) (h : s.queue.ordered) :
    (s.sweepStart order late).queue.ordered := by
  change ((sweepTurns order late).foldl s.takeTurn s.countSweep).queue.ordered
  have start : s.countSweep.queue.ordered := h
  generalize s.countSweep = t at start
  induction sweepTurns order late generalizing t with
  | nil => exact start
  | cons turn rest ih => exact ih _ (takeTurn_ordered _ _ _ start)

end Sys2Proof.Machine
end

