-- ==== Sys2Proof/Laws/Reset.lean ====
section
/-! SUPPORT. What stands in the reset contents of the planes, the keys and the tables. -/

namespace Sys2Proof.Machine

/-- Every cell of a reset plane holds a reset record (R3). -/
theorem planeReset_getElem (a : Fin 128) : Plane.reset[a] = CellRecord.reset := by
  change Plane.reset[a.val] = _
  rw [getElem_eq_of_toList]
  change (List.replicate 128 CellRecord.reset)[a.val]? = _
  rw [List.getElem?_replicate, if_pos a.isLt]

theorem planeReset_sound : planeSound Plane.reset := by
  intro a
  rw [planeReset_getElem]
  exact ⟨(by intro lead h; cases h), by intro h; exact absurd rfl h⟩

theorem keysUp_getElem (k : Fin 128) : keysUp[k] = KeyRecord.up := by
  change keysUp[k.val] = _
  rw [getElem_eq_of_toList]
  change (List.replicate 128 KeyRecord.up)[k.val]? = _
  rw [List.getElem?_replicate, if_pos k.isLt]

/-- R65 to R67: every default content passes its validation, as a computation. -/
theorem defaultTables_checked :
    (allTables.all fun table => (List.range (tableEntries table)).all fun i =>
      !TableStore.reset.entryFails true table i && !TableStore.reset.entryFails false table i) = true := by
  decide +kernel

theorem mem_allTables (table : Table) : table ∈ allTables := by cases table <;> decide

/-- R65 to R67, R50. -/
theorem defaultTables_pass (active : Bool) (table : Table) : TableStore.reset.passes active table := by
  intro i hi
  have h := defaultTables_checked
  rw [List.all_eq_true] at h
  have h := h table (mem_allTables table)
  rw [List.all_eq_true] at h
  have h := h i (List.mem_range.mpr hi)
  cases active <;> simp_all

end Sys2Proof.Machine
end

