-- ==== Sys2Proof/Laws/Slots.lean ====
section
/-! SUPPORT. The frame slots: what is read after a write, and what the CRC at the end of a frame does. -/

namespace Sys2Proof.Machine

variable (s : State)

@[simp] theorem slot_putSlot (id : SlotId) (x : Slot) : (s.putSlot id x).slot id = x := by cases id <;> rfl

theorem slot_putSlot_ne (id other : SlotId) (x : Slot) (h : other ≠ id) :
    (s.putSlot id x).slot other = s.slot other := by
  cases id <;> cases other <;> first | rfl | exact absurd rfl h

@[simp] theorem putSlot_putSlot (id : SlotId) (x y : Slot) : (s.putSlot id x).putSlot id y = s.putSlot id y := by
  cases id <;> rfl

theorem putSlot_slot (id : SlotId) : s.putSlot id (s.slot id) = s := by cases id <;> rfl

@[simp] theorem editFrame_slot (id : SlotId) (at_ : Nat) (new : List Byte) :
    (s.editFrame id at_ new).slot id = { s.slot id with bytes := overwrite (s.slot id).bytes at_ new } :=
  slot_putSlot ..

/-- An edit keeps every frame's length (R176). -/
theorem editFrame_length (id other : SlotId) (at_ : Nat) (new : List Byte) :
    ((s.editFrame id at_ new).slot other).bytes.length = (s.slot other).bytes.length := by
  by_cases h : other = id
  · subst h; rw [editFrame_slot]; exact overwrite_length ..
  · unfold State.editFrame; rw [slot_putSlot_ne _ _ _ _ h]

theorem editFrame_use (id other : SlotId) (at_ : Nat) (new : List Byte) :
    ((s.editFrame id at_ new).slot other).use = (s.slot other).use := by
  by_cases h : other = id
  · subst h; rw [editFrame_slot]
  · unfold State.editFrame; rw [slot_putSlot_ne _ _ _ _ h]

theorem crcBytes_length (bytes : List Byte) : (crcBytes bytes).length = 2 := rfl

theorem frameBody_length (bytes : List Byte) : (frameBody bytes).length = bytes.length - 2 := by
  unfold frameBody; simp

/-- Writing the CRC over the last two bytes of a frame (R169). -/
theorem overwrite_crc (bytes crc : List Byte) (long : 2 ≤ bytes.length) (two : crc.length = 2) :
    overwrite bytes (bytes.length - 2) crc = frameBody bytes ++ crc := by
  rw [overwrite_eq _ _ _ (by omega), List.drop_of_length_le (by omega)]
  simp [frameBody]

/-- A good frame already ends with its CRC (R168). -/
theorem withCrc_of_good (slot : Slot) (h : slot.good = true) : withCrc slot.bytes = slot.bytes := by
  unfold Slot.good at h
  simp only [Bool.and_eq_true, beq_iff_eq] at h
  unfold withCrc
  rw [← h.2]
  exact List.take_append_drop ..

theorem good_length (slot : Slot) (h : slot.good = true) : 6 ≤ slot.bytes.length := by
  unfold Slot.good at h
  simp only [Bool.and_eq_true, decide_eq_true_eq] at h
  exact h.1.1.1.1

/-- R175: a frame that is readied carries the CRC of what it holds. -/
theorem readyGood_eq (id : SlotId) (long : 2 ≤ (s.slot id).bytes.length) :
    s.readyGood id =
      (s.putSlot id { s.slot id with bytes := withCrc (s.slot id).bytes }).markReady id .ed := by
  unfold State.readyGood State.editFrame
  rw [overwrite_crc _ _ long (crcBytes_length _)]
  rfl

theorem withCrc_length (bytes : List Byte) (long : 2 ≤ bytes.length) : (withCrc bytes).length = bytes.length := by
  unfold withCrc
  rw [List.length_append, frameBody_length, crcBytes_length]
  omega

end Sys2Proof.Machine
end

