-- ==== Sys2Proof/Laws/Sweep.lean ====
section
/-! SUPPORT. When the Multiplex Driver's commands act: the checks of Machine/Drive.lean in the words of Safety.lean, and
the two answers of each command. -/

namespace Sys2Proof.Machine

/-- The check of SWEEP_START is the statements' own wording of a sweep's end. -/
theorem sweepOver_iff (s : State) (late : Option LateSample) : s.sweepOver late = true ↔ s.sweepEnds late := by
  unfold State.sweepOver State.sweepEnds State.inLastPhase
  simp only [Bool.and_eq_true, Bool.or_eq_true, Bool.not_eq_true', decide_eq_true_eq, beq_iff_eq, Option.isSome_iff_ne_none]
  exact and_assoc

/-- R25: SWEEP_START at the end of a sweep. -/
theorem execSweepStart_of_ends {s : State} {order : SubmitOrder} {late : Option LateSample} (h : s.sweepEnds late) :
    execSweepStart ⟨order, late⟩ s = .next (s.sweepStart order (s.lateSample late)) := by
  have holds := (sweepOver_iff s late).mpr h
  simp only [execSweepStart, holds, if_true]

/-- SWEEP_START at any other time. -/
theorem execSweepStart_of_goes_on {s : State} {order : SubmitOrder} {late : Option LateSample} (h : ¬s.sweepEnds late) :
    execSweepStart ⟨order, late⟩ s = .next s := by
  have stays : ¬s.sweepOver late = true := fun hover => h ((sweepOver_iff s late).mp hover)
  simp only [execSweepStart, stays]
  rfl

/-- What PHASE_START can do: begin the next phase, or nothing. -/
theorem phaseStart_cases (s : State) :
    (s.drive.window = .ended ∧ s.drive.phase < s.drive.sweep.phases.toNat ∧ s.phaseStart = s.withDrive
      { s.drive with phase := s.drive.phase + 1, window := firstWindow s.drive.sweep.onTime }) ∨ s.phaseStart = s := by
  unfold State.phaseStart
  split
  · next h => exact Or.inl ⟨h.1, h.2, rfl⟩
  · exact Or.inr rfl

/-- What LIT_WINDOW_END can do: end the lit window, or nothing. -/
theorem litWindowEnd_cases (s : State) :
    (s.drive.window = .lit ∧ s.litWindowEnd = s.withDrive { s.drive with window := afterLit s.drive.sweep.onTime }) ∨
      s.litWindowEnd = s := by
  unfold State.litWindowEnd
  split
  · next h => exact Or.inl ⟨h, rfl⟩
  · exact Or.inr rfl

/-- What SENSE_WINDOW_START can do: begin the sense window, or nothing. -/
theorem senseWindowStart_cases (s : State) :
    (s.senseDue = true ∧ s.senseWindowStart = s.withDrive { s.drive with window := .sense }) ∨ s.senseWindowStart = s := by
  unfold State.senseWindowStart
  split
  · next h => exact Or.inl ⟨h, rfl⟩
  · exact Or.inr rfl

end Sys2Proof.Machine
end

