-- ==== Sys2Proof/Tests/Slice0.lean ====
section
/-! SUPPORT. The model's own tests: what the form check refuses, values the spec works out, single steps on small
states, and for every statement with hypotheses a state and operands that meet them. -/

namespace Sys2Proof.Tests

-- One theorem at a time: the evaluations side by side take more memory than the check allows.
set_option Elab.async false

open Sys2Proof Sys2Proof.Machine

/-! ## Well-formedness: one ill-formed term for each check -/

theorem test_unknownRequest_too_long : (Instr.unknownRequest 0x77 (List.replicate 256 0)).wellFormed = false := by decide +kernel
theorem test_settingWrite_empty : (Instr.settingWrite []).wellFormed = false := by decide +kernel
theorem test_settingWrite_too_long : (Instr.settingWrite (List.replicate 128 (0, 1))).wellFormed = false := by decide +kernel
theorem test_writeCells_too_long : (Instr.writeCells 0 (List.replicate 255 0)).wellFormed = false := by decide +kernel
theorem test_writeCells_reserved_attr : (Instr.writeCells 0 [1, 0x20, 0]).wellFormed = false := by decide +kernel
theorem test_writeCells_reserved_lead : (Instr.writeCells 0 [1, 0, 5]).wellFormed = false := by decide +kernel
theorem test_fillCells_reserved : (Instr.fillCells 0 1 1 ⟨1, 0x80, 0⟩).wellFormed = false := by decide +kernel
theorem test_tableLoad_too_long : (Instr.tableLoad 0 0 (List.replicate 253 0)).wellFormed = false := by decide +kernel
theorem test_byteReceived_delimiter : (Instr.byteReceived .ed).wellFormed = false := by decide +kernel
theorem test_lsRisingEdge_too_late : (Instr.lsRisingEdge 65535).wellFormed = false := by decide +kernel
theorem test_wellFormed_terms :
    (Instr.writeCells 5 [65, 0x1A, 0x84]).wellFormed = true ∧ (Instr.settingWrite [(4, 8)]).wellFormed = true ∧
      (Instr.byteReceived .invalid).wellFormed = true := by decide +kernel

/-! ## States -/

/-- Out of reset, UNADDRESSED, the relay in RELAY. -/
def fresh : State := { State.reset with rstLow := false, relay := { Relay.reset with mode := .relay } }

/-- In a node state, with address 5 unless UNADDRESSED. -/
def nodeIn (state : NodeState) : State :=
  fresh.withNode
    { state := state, address := if state = .unaddressed then none else some 5, time := 100, silence := 0, fallbackHold := false }

/-- `s` with one setting stored. -/
def setTo (s : State) (n : Setting) (v : Byte) : State := s.withSettings (storeSetting s.settings n v)

/-- The task of a COMMAND for address 5 (or a broadcast) in slot 1 whose next item is this one; the payload has 64 bytes
more than the item. -/
def task (broadcast : Bool) (code : Byte) (params : List Byte) : Processing :=
  ⟨.one, broadcast, 5, 1 :: code :: natByte params.length :: (params ++ List.replicate 64 0), 1, 0, 1, false, false⟩

def asking (s : State) (broadcast : Bool) (code : Byte) (params : List Byte) : State :=
  s.withEngine (.taking (task broadcast code params))

/-- The bytes of a good frame with this header and payload (R168). -/
def frameOf (kind dest : Byte) (payload : List Byte) : List Byte :=
  withCrc ([kind, dest, 7, natByte payload.length] ++ payload ++ [0, 0])

/-- `s` receiving these bytes in slot 1. -/
def receiving (s : State) (bytes : List Byte) : State :=
  (s.putSlot .one ⟨.filling, bytes, List.replicate bytes.length false, .ed⟩).setReceive (.storing .one)

/-- An entry, and a queue of `n` entries with this delivery, seqs from 0. -/
def entry (seq : Byte) (kind : EventKind) (d : Delivery) : Entry := ⟨seq, kind, 1, 9, d⟩
def queueOf (n : Nat) (d : Delivery) : EventQueue :=
  ⟨(List.range n).map fun i => entry (natByte i) .keyDown d, natByte n, 0⟩

/-- A play of default pattern `number`, whose segment 1 is on, at a segment and with repeats left. -/
def playing (kind : ToneKind) (number : Byte) (segment : Nat) (left : Option Nat) : Play :=
  { newPlay kind number TableStore.reset.tone.active with segment := segment, repeatsLeft := left }

/-- FULL scanning with key 0 in this record. -/
def scanning (r : KeyRecord) : State :=
  ((nodeIn .online).withScanner { Scanner.reset with mode := .full }).putKey 0 r

/-- A press of key 0 that reports, repeats and silences. -/
def pressed (held : Nat) (gap : Option Nat) : PressRecord := ⟨0, true, true, true, true, 50, held, gap⟩

/-- WAKE scanning in a node state, with this any-key record. -/
def waking (state : NodeState) (d : Debounce) : State :=
  (nodeIn state).withScanner { Scanner.reset with mode := .wake, anyKey := some d }

/-- The light measurement in a state. -/
def measuring (state : LightState) (count sweeps : Nat) : State :=
  (setTo (nodeIn .online) .lightMode 2).withLight
    { LightUnit.reset with state := state, count := count, windowSweeps := sweeps }

/-- The state an outcome goes on with. -/
def nextOf : Host.Outcome State Fault Refusal → State
  | .next t => t
  | .fault _ => State.reset
  | .refused _ => State.reset

/-! ## Values the spec works out -/

/-- R169: the check value. -/
theorem test_crc_check_value : crcOf [0x31, 0x32, 0x33, 0x34, 0x35, 0x36, 0x37, 0x38, 0x39] = 0x29B1 := by
  decide +kernel

/-- Section 1.3, the four-digit counter: cells 20 to 23 with codes 0, 0, 4, 2. -/
def counterPlane : Plane :=
  overwriteVector Plane.reset 20
    [⟨0, .suppress, .none, false, none⟩, ⟨0, .suppress, .none, false, some 20⟩,
      ⟨4, .suppress, .none, false, some 21⟩, ⟨2, .glyph, .none, false, some 21⟩]

theorem test_counter_42 :
    patternOf counterPlane defaultGlyph 20 = 0 ∧ patternOf counterPlane defaultGlyph 21 = 0 ∧
      patternOf counterPlane defaultGlyph 22 = litLines [1, 2, 5, 6] ∧
      patternOf counterPlane defaultGlyph 23 = litLines [0, 1, 3, 4, 6] := by decide +kernel

/-- R3: any reset cell shows nothing. -/
theorem test_reset_cell_is_dark : patternOf Plane.reset defaultGlyph 77 = 0 := by decide +kernel

/-- 00_scope.md: key (r − 1) × 16 + (c − 1). Key 35 is column 4, return 3. -/
theorem test_key_35 : keyColumn 35 = 3 ∧ keyReturn 35 = 2 := by decide

/-- R70: keys 0 and 33 closed (column 1 return 1, column 2 return 3), column 2 driven alone: K3 reads closed. -/
theorem test_matrix : matrixReturns [0, 33] 2 = 4 := by decide

/-! ## Single steps -/

/-- A command at the front is taken, and the rest waits. -/
theorem test_step_takes_front :
    (nextOf (step ((nodeIn .online).withPending [.millisecondTick, .toneStop]))).node.time = 101 ∧
      (nextOf (step ((nodeIn .online).withPending [.millisecondTick, .toneStop]))).pending = [.toneStop] := by
  decide +kernel

/-- With nothing waiting a PERIOD measurement counts a microsecond. -/
theorem test_idle_counts : (measuring .periodCount 5 0).microsecond.light.count = 6 := by decide +kernel

/-- R181: at the release the relay leaves BYPASS, and the first sweep counts 1. -/
theorem test_release :
    State.reset.resetRelease.relay.mode = .relay ∧ State.reset.resetRelease.drive.sweepCounter = 1 := by
  decide +kernel

/-- R150: an UNADDRESSED node takes address 9 from an ENUMERATE frame, FRESH, taken 3. -/
theorem test_enumerate :
    ((receiving fresh (frameOf 1 63 [1, 9, 3, 0])).frameEnd .closed).node.address = some 9 ∧
      (((receiving fresh (frameOf 1 63 [1, 9, 3, 0])).frameEnd .closed).slot .one).bytes =
        frameOf 1 63 [1, 10, 4, 0] := by decide +kernel

/-- R108, R109: one UNSENT entry fills the first slot of a GATHER frame of one slot. -/
theorem test_gather :
    (((receiving ((nodeIn .online).withQueue (queueOf 1 .unsent)) (frameOf 4 63 [1, 0, 0, 0, 0, 0, 0])).frameEnd
      .closed).slot .one).bytes = frameOf 4 63 [1, 5, 0, 1, 1, 0, 9] := by decide +kernel

/-- R185: a COMMAND with one SET_TIME becomes its REPLY. -/
theorem test_set_time_reply :
    let t := nextOf (execFrameEnd .closed (receiving (nodeIn .online) (frameOf 2 5 [1, 0x04, 2, 0x12, 0x34])))
    let u := nextOf (execSetTime 0x1234 t)
    u.node.time = 0x1234 ∧ (u.slot .one).bytes = frameOf 3 5 [1, 0x04, 0, 0, 0] ∧ (u.slot .one).use = .ready := by
  decide +kernel

/-! ## Hypotheses met: the queue of commands, reset, items -/

theorem witness_emptyQueueStep :
    (measuring .periodCount 65533 0).pending = [] ∧ (measuring .periodCount 65533 0).light.inPeriod = true ∧
      (measuring .periodCount 65533 0).light.count < 65534 ∧ fresh.light.inPeriod = false ∧
      (measuring .edgeWait 65534 0).light.inPeriod = true ∧ 65534 ≤ (measuring .edgeWait 65534 0).light.count := by
  decide +kernel

/-- The carrier of pattern 5 a microsecond before its outputs exchange, and at it. -/
theorem witness_carrier :
    let length := patternHalfPeriod (playing .requested 5 1 (some 1)).copy
    patternOn (playing .requested 5 1 (some 1)).copy 1 = true ∧ 2 ≤ length ∧
      ¬length ≤ { playing .requested 5 1 (some 1) with halfTime := length - 2 }.halfTime + 1 ∧
      length ≤ { playing .requested 5 1 (some 1) with halfTime := length - 1 }.halfTime + 1 := by decide +kernel

theorem witness_hardReset :
    State.reset.inReset = true ∧ fresh.inReset = false ∧ fresh.relay.transmit = .idle 0 ∧ fresh.relay.mode = .relay ∧
      (fresh.setMode (.bypassTail 3)).inReset = false ∧ (fresh.setMode (.bypassTail 3)).relay.mode = .bypassTail 3 ∧
      ((fresh.setMode (.bypassTail 3)).countIdle 2).relay.transmit = .idle 2 ∧
      (fresh.beginSending .one []).inReset = false ∧ (fresh.beginSending .one []).relay.transmit = .sending .one := by
  decide +kernel

/-- A hard reset with a frame being repeated, and one with the supply lost. -/
theorem witness_release :
    (State.reset.setMode (.bypass (.inFrame 254))).relay.mode = .bypass (.inFrame 254) ∧
      State.reset.setMode (.bypass (.inFrame 254)) =
        (State.reset.setMode (.bypass (.inFrame 254))).heldInReset true true
          (State.reset.setMode (.bypass (.inFrame 254))).relay := ⟨rfl, rfl⟩

theorem witness_supply :
    fresh.supplyOk = true ∧ State.reset.supplyLoss.supplyOk = false ∧ State.reset.supplyLoss.rstLow = true ∧
      fresh.supplyLoss.supplyOk = false ∧ fresh.supplyLoss.rstLow = false ∧
      fresh.supplyLoss = fresh.supplyLoss.heldInReset false false fresh.supplyLoss.relay :=
  ⟨rfl, rfl, rfl, rfl, rfl, rfl⟩

theorem witness_requestItems :
    (Instr.settingWrite (List.replicate 127 (23, 255))).wellFormed = true ∧
      (requestItem (Instr.settingWrite (List.replicate 127 (23, 255)))).isSome = true ∧
      requestOf 0x12 [3] = some (.nodeReset 3) := by decide +kernel

theorem witness_unsuitable :
    (2#8).toNat ≥ 2 ∧ (128#8).toNat ≥ 128 ∧ [(1 : Byte)].length % 2 = 1 ∧ (32#8).toNat ≥ 32 ∧ 1 ≤ (127#8).toNat ∧
      (127#8).toNat < 128 ∧ 0x43 ≤ (0x43#8).toNat := by decide

/-- The invariants' premises hold of an ONLINE node that scans and holds an entry. -/
theorem witness_invariants :
    let s := (scanning ⟨⟨true, 0⟩, some (pressed 0 none)⟩).withQueue (queueOf 2 .unsent)
    s.resetHeld ∧ s.nodeSound ∧ s.timerSound ∧ s.queue.ordered ∧ s.queueEmptyUnaddressed ∧ s.cellsSound ∧
      s.tablesSound ∧ s.settingsSound ∧ s.stepSound ∧ s.alertSound ∧ s.toneSilent ∧ s.lightSound ∧
      s.light.bounded ∧ s.relayBounded := by
  refine ⟨?_, ⟨⟨?_, ?_⟩, ?_⟩, ?_, ?_, ?_, ⟨planeReset_sound, planeReset_sound, planeReset_sound⟩, ?_, ?_, ?_, ?_, ?_, ?_,
    ?_, ?_⟩
  · intro h; exact absurd h (by decide +kernel)
  · exact ⟨(by intro h; cases h), (by intro h; cases h)⟩
  · intro a h; cases h; decide
  · exact Or.inl rfl
  · exact ⟨by decide, fun _ => rfl⟩
  · refine ⟨⟨by decide, by decide⟩, ⟨rfl, rfl⟩, ⟨?_, ?_, trivial⟩, by decide, fun _ => rfl⟩
    · intro _ e he; rw [List.mem_singleton.mp he]; rfl
    · intro _ e he; cases he
  · intro h; cases h
  · exact fun table => ⟨defaultTables_pass true table, fun _ => defaultTables_pass false table⟩
  · intro n; cases n <;> decide
  · constructor <;> decide +kernel
  · intro h; cases h
  · intro _; rfl
  · exact ⟨fun _ => rfl, fun _ => rfl⟩
  · exact ⟨by decide, by decide, by decide⟩
  · exact ⟨⟨by decide, rfl⟩, ⟨by decide, rfl⟩, by decide⟩

theorem witness_scannerSound : (waking .quiescent ⟨true, 0⟩).scannerSound := by
  refine ⟨fun _ => rfl, fun k => ?_, ⟨fun _ => rfl, fun _ => rfl⟩⟩
  change (keysUp[k]).sound
  rw [keysUp_getElem]
  rfl

/-! ## Hypotheses met: the Frame Relay -/

/-- A slot that waits to be sent. -/
def readySlot : Slot := ⟨.ready, frameOf 3 6 [], List.replicate 6 false, .ed⟩

/-- A slot being filled with `n` bytes that are no good frame. -/
def fillingSlot (n : Nat) : Slot := ⟨.filling, List.replicate n 0, List.replicate n false, .ed⟩

/-- The hypotheses of a good frame, checked. -/
theorem closesGood_of (s : State) (kind : BitVec 4) (mode : s.relay.mode = .relay) (rx : s.relay.rx = .storing .one)
    (good : (s.slot .one).good = true) (k : frameKind (s.slot .one).bytes = kind) :
    s.closesGood .one kind := ⟨⟨mode, rx⟩, good, k⟩

/-- The same with no COMMAND in process. -/
theorem receivesGood_of (s : State) (kind : BitVec 4) (mode : s.relay.mode = .relay) (rx : s.relay.rx = .storing .one)
    (engine : s.engine = .idle) (good : (s.slot .one).good = true) (k : frameKind (s.slot .one).bytes = kind) :
    s.receivesGood .one kind := ⟨engine, closesGood_of s kind mode rx good k⟩

theorem witness_frameOpen :
    (fresh.relay.mode = .relay ∧ fresh.relay.rx = .between ∧ fresh.relay.slot1.use = .free) ∧
      ((fresh.putSlot .one readySlot).relay.slot1.use ≠ .free ∧ (fresh.putSlot .one readySlot).relay.slot2.use = .free) ∧
      (((fresh.putSlot .one readySlot).putSlot .two readySlot).relay.slot1.use ≠ .free ∧
        ((fresh.putSlot .one readySlot).putSlot .two readySlot).relay.slot2.use ≠ .free) ∧
      (fresh.setReceive .discarding).relay.rx = .discarding := by decide +kernel

/-- Slot 1 is being filled with `n` bytes. -/
def filling (n : Nat) : State := (fresh.putSlot .one (fillingSlot n)).setReceive (.storing .one)

theorem witness_bytes :
    ((filling 253).relay.rx = .storing .one ∧ ((filling 253).slot .one).bytes.length = 253) ∧
      ((filling 254).relay.rx = .storing .one ∧ ((filling 254).slot .one).bytes.length = 254) ∧
      (fresh.setReceive (.unstored 253)).relay.rx = .unstored 253 ∧
      (fresh.setReceive (.unstored 254)).relay.rx = .unstored 254 ∧ fresh.relay.rx = .between := by decide +kernel

theorem witness_framesNotGood :
    (filling 254).storesIn .one ∧ ((filling 254).slot .one).good = false ∧
      ((filling 254).slot .one).bytes.length = 254 ∧ ((filling 254).slot .one).use ≠ .free :=
  ⟨⟨rfl, rfl⟩, by decide +kernel, by decide +kernel, by decide⟩

/-- A frame cut by SD at its start, in a slot and overrun. -/
theorem witness_cuts :
    (filling 0).relay.mode = .relay ∧ (filling 0).relay.rx = .storing .one ∧
      (fresh.setReceive (.unstored 0)).relay.rx = .unstored 0 := by decide +kernel

/-- Frames of no owner: a COMMAND for node 6, a REPLY in either state; and a GATHER at a node without address. -/
theorem witness_unowned :
    (receiving (nodeIn .online) (frameOf 2 6 [1, 0x10, 0])).closesGood .one 2 ∧
      (nodeIn .online).node.address ≠ some (frameDest (frameOf 2 6 [1, 0x10, 0])) ∧
      frameDest (frameOf 2 6 [1, 0x10, 0]) ≠ 63 ∧ (receiving (nodeIn .quiescent) (frameOf 3 5 [])).closesGood .one 3 ∧
      (receiving fresh (frameOf 4 63 [1, 0, 0, 0, 0, 0, 0])).closesGood .one 4 ∧
      (receiving (nodeIn .standalone) (frameOf 3 5 [])).closesGood .one 3 := by
  refine ⟨closesGood_of _ _ rfl rfl ?_ ?_, ?_, ?_, closesGood_of _ _ rfl rfl ?_ ?_,
    closesGood_of _ _ rfl rfl ?_ ?_, closesGood_of _ _ rfl rfl ?_ ?_⟩ <;> decide +kernel

/-- Owned frames in STANDALONE. -/
theorem witness_standalone :
    (receiving (nodeIn .standalone) (frameOf 1 63 [1, 9, 3, 0])).receivesGood .one 1 ∧
      (receiving (nodeIn .standalone) (frameOf 2 5 [1, 0x10, 0])).receivesGood .one 2 ∧
      (receiving (nodeIn .standalone) (frameOf 4 63 [1, 0, 0, 0, 0, 0, 0])).receivesGood .one 4 := by
  refine ⟨receivesGood_of _ _ rfl rfl rfl ?_ ?_, receivesGood_of _ _ rfl rfl rfl ?_ ?_,
    receivesGood_of _ _ rfl rfl rfl ?_ ?_⟩ <;> decide +kernel

theorem witness_enumerateGives :
    (∀ state ∈ [NodeState.unaddressed, .online, .quiescent],
      (receiving (nodeIn state) (frameOf 1 63 [1, 62, 62, 0])).receivesGood .one 1) ∧
      enumAccepted (frameOf 1 63 [1, 62, 62, 0]) = true ∧ (enumNext (frameOf 1 63 [1, 62, 62, 0])).toNat ≤ 62 ∧
      enumMode (frameOf 1 63 [1, 62, 62, 0]) = 1 := by
  refine ⟨fun state _ => receivesGood_of _ _ rfl rfl rfl ?_ ?_, ?_, ?_, ?_⟩
  · change Slot.good ⟨.filling, frameOf 1 63 [1, 62, 62, 0], List.replicate _ false, .ed⟩ = true; decide +kernel
  · change frameKind (frameOf 1 63 [1, 62, 62, 0]) = 1; decide +kernel
  all_goals decide +kernel

theorem witness_enumerateExhausted :
    (∀ state ∈ [NodeState.unaddressed, .online, .quiescent],
      (receiving (nodeIn state) (frameOf 1 63 [1, 63, 62, 0])).receivesGood .one 1) ∧
      enumAccepted (frameOf 1 63 [1, 63, 62, 0]) = true ∧ enumNext (frameOf 1 63 [1, 63, 62, 0]) = 63 ∧
      enumMode (frameOf 1 63 [1, 63, 62, 0]) = 1 := by
  refine ⟨fun state _ => receivesGood_of _ _ rfl rfl rfl ?_ ?_, ?_, ?_, ?_⟩
  · change Slot.good ⟨.filling, frameOf 1 63 [1, 63, 62, 0], List.replicate _ false, .ed⟩ = true; decide +kernel
  · change frameKind (frameOf 1 63 [1, 63, 62, 0]) = 1; decide +kernel
  all_goals decide +kernel

theorem witness_enumerateUntaken :
    (receiving (nodeIn .online) (frameOf 1 63 [3, 9, 0, 0])).receivesGood .one 1 ∧
      enumAccepted (frameOf 1 63 [3, 9, 0, 0]) = false ∧
      (receiving (nodeIn .quiescent) (frameOf 1 63 [2, 9, 0, 0])).receivesGood .one 1 ∧
      enumMode (frameOf 1 63 [2, 9, 0, 0]) = 2 := by
  refine ⟨receivesGood_of _ _ rfl rfl rfl ?_ ?_, ?_, receivesGood_of _ _ rfl rfl rfl ?_ ?_, ?_⟩ <;> decide +kernel

theorem witness_gather :
    (receiving (nodeIn .quiescent) (frameOf 4 63 [1, 0, 0, 0, 0, 0, 0])).closesGood .one 4 ∧
      gatherAccepted (frameOf 4 63 [1, 0, 0, 0, 0, 0, 0]) = true ∧
      (receiving (nodeIn .online) (frameOf 4 63 [42])).closesGood .one 4 ∧
      gatherAccepted (frameOf 4 63 [42]) = false := by
  refine ⟨closesGood_of _ _ rfl rfl ?_ ?_, ?_, closesGood_of _ _ rfl rfl ?_ ?_, ?_⟩ <;> decide +kernel

/-- Aging: a head that has waited its three passes, and one that has not. -/
theorem witness_aging :
    ((queueOf 1 (.sent 2)).entries = [entry 0 .keyDown (.sent 2)] ∧ 3 ≤ min 15 (2 + 1)) ∧
      (queueOf 1 (.sent 1)).entries = [entry 0 .keyDown (.sent 1)] ∧ ¬3 ≤ min 15 (1 + 1) := by decide +kernel

/-- Filling two slots, the first occupied, with two UNSENT entries and a quota of 1: one entry is written. -/
theorem witness_filling :
    let bytes : List Byte := frameOf 4 63 [2, 9, 0, 0, 0, 0, 0, 0, 0, 0, 0, 0, 0]
    5 + 6 * 2 ≤ bytes.length ∧ bytes.getD 5 0 ≠ 0 ∧ bytes.getD (5 + 6 * 1) 0 = 0 ∧
      ((queueOf 2 .unsent).entries.filter fun e => !e.isSent)[0]? = some (entry 0 .keyDown .unsent) ∧
      sentFirst (queueOf 1 .unsent).entries := by
  refine ⟨?_, ?_, ?_, ?_, ⟨fun _ e he => (by cases he), trivial⟩⟩ <;> decide +kernel

theorem witness_commandBegins :
    (receiving (nodeIn .online) (frameOf 2 5 [1, 0x10, 0])).receivesGood .one 2 ∧
      (receiving (nodeIn .online) (frameOf 2 63 [1, 0x10, 0])).receivesGood .one 2 ∧
      frameDest (frameOf 2 5 [1, 0x10, 0]) = 5 ∧ frameDest (frameOf 2 63 [1, 0x10, 0]) = 63 ∧
      1 ≤ (framePayload (frameOf 2 5 [1, 0x10, 0])).length ∧
      (framePayload (frameOf 2 5 [1, 0x10, 0])).getD 0 0 ≠ 0 ∧ (nodeIn .online).node.address = some 5 := by
  refine ⟨receivesGood_of _ _ rfl rfl rfl ?_ ?_, receivesGood_of _ _ rfl rfl rfl ?_ ?_, ?_, ?_, ?_, ?_, ?_⟩ <;>
    decide +kernel

/-- COMMAND frames without items: no payload, and request count 0. -/
theorem witness_commandWithoutItems :
    (receiving (nodeIn .online) (frameOf 2 5 [])).receivesGood .one 2 ∧ framePayload (frameOf 2 5 []) = [] ∧
      (receiving (nodeIn .quiescent) (frameOf 2 63 [0, 7])).receivesGood .one 2 ∧
      (framePayload (frameOf 2 63 [0, 7])).getD 0 0 = 0 := by
  refine ⟨receivesGood_of _ _ rfl rfl rfl ?_ ?_, ?_, receivesGood_of _ _ rfl rfl rfl ?_ ?_, ?_⟩ <;> decide +kernel

/-- An ENUMERATE and a COMMAND for this node close while a COMMAND is in process. -/
theorem witness_waits :
    ((receiving (asking (nodeIn .online) false 0x10 []) (frameOf 1 63 [1, 9, 3, 0])).closesGood .one 1 ∧
      (receiving (asking (nodeIn .online) false 0x10 []) (frameOf 1 63 [1, 9, 3, 0])).engine ≠ .idle) ∧
      (receiving (asking (nodeIn .quiescent) false 0x10 []) (frameOf 2 5 [])).closesGood .one 2 ∧
      (nodeIn .quiescent).node.address = some (frameDest (frameOf 2 5 [])) := by
  refine ⟨⟨closesGood_of _ _ rfl rfl ?_ ?_, ?_⟩, closesGood_of _ _ rfl rfl ?_ ?_, ?_⟩ <;> decide +kernel

/-- A READY slot waits, and IDLE symbols are due; a slot is being sent. -/
def waiting : State := (fresh.putSlot .one readySlot).markReady .one .ed

theorem witness_transmission :
    (waiting.relay.mode = .relay ∧ waiting.relay.transmit = .idle 0 ∧ waiting.relay.readyOrder = [.one]) ∧
      (fresh.relay.readyOrder = [] ∧ fresh.relay.transmit = .idle 0) ∧
      ((waiting.transmitStart 2).relay.mode = .relay ∧ (waiting.transmitStart 2).relay.transmit = .sending .one) := by
  decide +kernel

theorem witness_bypass :
    (State.reset.supplyOk = true ∧ (State.reset.setMode (.bypass .between)).relay.mode = .bypass .between) ∧
      (State.reset.setMode (.bypass (.inFrame 253))).relay.mode = .bypass (.inFrame 253) ∧
      ((State.reset.countIdle 2).relay.mode = .bypass .waiting ∧ (State.reset.countIdle 2).relay.transmit = .idle 2) ∧
      ((State.reset.countIdle 1).relay.mode = .bypass .waiting ∧ (State.reset.countIdle 1).relay.transmit = .idle 1) ∧
      (fresh.setMode (.bypassTail 253)).relay.mode = .bypassTail 253 ∧ fresh.supplyOk = true ∧
      ((fresh.setMode (.bypassTail 254)).relay.mode = .bypassTail 254 ∧
        (fresh.setMode (.bypassTail 254)).relay.transmit = .idle 0) := by decide +kernel

/-! ## Hypotheses met: the Request Engine -/

/-- The engine's task and the item that is next in it, checked. -/
def itemChecked (c : Instr) (code : Byte) (params : List Byte) : Bool :=
  decide ((task false code params).item = .whole code params) && decide (requestOf code params = some c) &&
    decide (largestReply code params ≤ (task false code params).room)

theorem asking_offers (s : State) (c : Instr) (code : Byte) (params : List Byte)
    (h : itemChecked c code params = true) :
    (asking s false code params).offers (task false code params) c code params := by
  unfold itemChecked at h
  simp only [Bool.and_eq_true, decide_eq_true_eq] at h
  exact ⟨rfl, rfl, h.1.1, h.1.2, h.2⟩

theorem asking_broadcast (s : State) (c : Instr) (code : Byte) (params : List Byte)
    (h : itemChecked c code params = true) :
    (asking s true code params).offersBroadcast (task true code params) c code params := by
  unfold itemChecked at h
  simp only [Bool.and_eq_true, decide_eq_true_eq] at h
  exact ⟨rfl, rfl, h.1.1, h.1.2⟩

/-- Each request of section 12.3 once: an item that spells it, and room for its reply. -/
theorem witness_items :
    ([(.readStatus true, 0x01, [1]), (.settingRead 23 1, 0x02, [23, 1]), (.settingRead 24 1, 0x02, [24, 1]),
      (.settingWrite [(4, 8), (10, 1)], 0x03, [4, 8, 10, 1]), (.settingWrite [(4, 8), (0, 9)], 0x03, [4, 8, 0, 9]),
      (.settingWrite [(5, 1)], 0x03, [5, 1]), (.settingWrite [(7, 1)], 0x03, [7, 1]),
      (.settingWrite [(5, 1), (21, 2), (16, 0), (5, 8)], 0x03, [5, 1, 21, 2, 16, 0, 5, 8]),
      (.settingWrite [(21, 2)], 0x03, [21, 2]), (.settingWrite [(16, 0)], 0x03, [16, 0]),
      (.setTime 0x1234, 0x04, [0x12, 0x34]), (.quiesce, 0x10, []), (.resume, 0x11, []),
      (.nodeReset 1, 0x12, [1]), (.nodeReset 2, 0x12, [2]), (.nodeReset 3, 0x12, [3]), (.nodeReset 0, 0x12, [0]),
      (.nodeReset 4, 0x12, [4]), (.commit 9, 0x23, [9]), (.toneStart 7, 0x41, [7]), (.toneStart 8, 0x41, [8]),
      (.toneStop, 0x42, [])] : List (Instr × Byte × List Byte)).all
        (fun row => itemChecked row.1 row.2.1 row.2.2) = true := by decide +kernel

theorem witness_storeItems :
    ([(.writeCells 127 [1, 0, 0], 0x20, [127, 1, 0, 0]), (.writeCells 127 [1, 0, 0, 1, 0, 0], 0x20, [127, 1, 0, 0, 1, 0, 0]),
      (.writeCells 5 [1, 0, 0, 64, 1, 0], 0x20, [5, 1, 0, 0, 64, 1, 0]),
      (.fillCells 0 128 1 ⟨1, 0, 0⟩, 0x21, [0, 128, 1, 1, 0, 0]), (.fillCells 0 129 1 ⟨1, 0, 0⟩, 0x21, [0, 129, 1, 1, 0, 0]),
      (.fillCells 3 2 8 ⟨0, 2, 0x83⟩, 0x21, [3, 2, 8, 0, 2, 0x83]), (.readCells 2 120 8 1, 0x22, [2, 120, 8, 1]),
      (.readCells 0 127 1 0, 0x22, [0, 127, 1, 0]), (.readCells 1 0 1 0, 0x22, [1, 0, 1, 0]),
      (.readCells 3 0 1 0, 0x22, [3, 0, 1, 0]), (.tableLoad 0 63 [1], 0x30, [0, 0, 63, 1]),
      (.tableLoad 0 64 [1], 0x30, [0, 0, 64, 1]), (.tableLoad 7 0 [1], 0x30, [7, 0, 0, 1]),
      (.tableRead 2 1 15 1, 0x31, [2, 1, 0, 15, 1]), (.tableRead 2 2 15 1, 0x31, [2, 2, 0, 15, 1]),
      (.tableRead 7 0 0 1, 0x31, [7, 0, 0, 0, 1]), (.tableActivate 0, 0x32, [0]), (.tableActivate 0x0B, 0x32, [0x0B]),
      (.tableAbandon 0, 0x33, [0]), (.tableAbandon 0x7F, 0x33, [0x7F]),
      (.ackEvents 0, 0x40, [0])] : List (Instr × Byte × List Byte)).all
        (fun row => itemChecked row.1 row.2.1 row.2.2) = true := by decide +kernel

/-- An empty COMMAND, whose REPLY stays empty. -/
theorem witness_emptyReply :
    (frameOf 2 5 [] = 2 :: 5 :: 7 :: 0 :: crcBytes (frameBody (frameOf 2 5 []))) ∧
      (⟨.one, false, 5, [], 1, 0, 1, false, false⟩ : Processing).request = [] := by decide +kernel

/-- Request counts 2 and 1: after the first item one more is to come, or none; three bytes of reply fill the payload. -/
theorem witness_itemAnswered :
    (frameOf 2 5 [2, 0x10, 0, 0] = [2, 5, 7, 4] ++ [2, 0x10, 0, 0] ++ crcBytes (frameBody (frameOf 2 5 [2, 0x10, 0, 0]))) ∧
      (∀ count : Byte, (⟨.one, false, 5, [count, 0x10, 0, 0], 1, 0, 1, false, false⟩ : Processing).request.length = 4) ∧
      1 + 3 + ([] : List Byte).length ≤ [(2 : Byte), 0x10, 0, 0].length ∧ 0 + 1 < (2#8).toNat ∧ (1#8).toNat ≤ 0 + 1 := by
  refine ⟨?_, fun _ => rfl, ?_, ?_, ?_⟩ <;> decide +kernel

theorem witness_replyLaidOut :
    (frameOf 2 5 [1, 0x10, 0] = 2 :: 5 :: 7 :: 3 :: ([1, 0x10, 0] ++ crcBytes (frameBody (frameOf 2 5 [1, 0x10, 0])))) ∧
      [(1 : Byte), 0x10, 0].length = (⟨.one, false, 5, [1, 0x10, 0], 3, 1, 3, false, false⟩ : Processing).request.length := by
  decide +kernel

/-- A task with room for two bytes only, and one whose next item is cut short. -/
def tight (item : List Byte) : Processing := ⟨.one, false, 5, 1 :: item, 1, 0, item.length - 1, false, false⟩

theorem witness_unfitItems :
    ((tight [0x10, 0]).item = .whole 0x10 [] ∧ (tight [0x10, 0]).room < largestReply 0x10 [] ∧
      requestOf 0x10 [] = some .quiesce) ∧
      ((tight [0x77, 0]).item = .whole 0x77 [] ∧ (tight [0x77, 0]).room < largestReply 0x77 [] ∧
        requestOf 0x77 [] = none) ∧
      ((tight [0x10, 9]).item = .malformed 0x10 ∧ (tight [0x10, 9]).room < 3) ∧
      ((⟨.one, false, 5, [1, 0x20, 9, 1], 1, 0, 1, false, false⟩ : Processing).item = .malformed 0x20 ∧
        3 ≤ (⟨.one, false, 5, [1, 0x20, 9, 1], 1, 0, 1, false, false⟩ : Processing).room) ∧
      ((task false 0x77 [4]).item = .whole 0x77 [4] ∧ largestReply 0x77 [4] ≤ (task false 0x77 [4]).room ∧
        requestOf 0x77 [4] = none) := by decide +kernel

/-- An accepted list of several pairs, one setting named twice, to nodes in and outside ONLINE. -/
theorem witness_acceptedList :
    (∀ pair ∈ [((5 : Byte), (1 : Byte)), (21, 2), (16, 0), (5, 8)],
      ∃ n, settingOfId pair.1 = some n ∧ settingInRange n pair.2 = true) ∧
      (nodeIn .online).node.state = .online ∧ (nodeIn .quiescent).node.state ≠ .online := by
  refine ⟨fun pair h => ?_, by decide +kernel, by decide +kernel⟩
  simp only [List.mem_cons, List.not_mem_nil, or_false] at h
  rcases h with h | h | h | h <;> subst h
  · exact ⟨.blinkAOn, by decide +kernel⟩
  · exact ⟨.lightMode, by decide +kernel⟩
  · exact ⟨.lossTimeout, by decide +kernel⟩
  · exact ⟨.blinkAOn, by decide +kernel⟩

/-- The settings of an accepted and of a refused list. -/
theorem witness_settingPairs :
    (settingOfId 4 = some .brightLevel ∧ settingInRange .brightLevel 8 = true ∧ settingOfId 0 = some .phases ∧
      settingInRange .phases 9 = false ∧ settingOfId 24 = none) ∧
      (settingOfId 5 = some .blinkAOn ∧ settingInRange .blinkAOn 1 = true ∧ settingOfId 7 = some .blinkBOn ∧
        settingInRange .blinkBOn 1 = true ∧ settingOfId 21 = some .lightMode ∧ settingInRange .lightMode 2 = true ∧
        settingOfId 16 = some .lossTimeout ∧ settingInRange .lossTimeout 0 = true) := by decide +kernel

theorem witness_due :
    (fresh.withEngine (.due .one .display)).engine = .due .one .display ∧
      (fresh.withEngine (.due .two .events)).engine = .due .two .events ∧
      (fresh.withEngine (.due .one .full)).engine = .due .one .full := ⟨rfl, rfl, rfl⟩

/-! ## Hypotheses met: the stores -/

/-- R10: one record for each check, at target 5, with codes and leads at the edges. -/
theorem witness_records :
    (RecordBytes.mk 63 0x12 0x84).plain = true ∧ recordFor 5 ⟨0, 3, 0⟩ = .error .badRange ∧
      recordFor 5 ⟨0, 12, 0⟩ = .error .badRange ∧ recordFor 5 ⟨64, 1, 0⟩ = .error .badCode ∧
      recordFor 5 ⟨63, 1, 0x85⟩ = .error .badLink ∧
      recordFor 5 ⟨63, 0x12, 0x84⟩ = .ok ⟨63, .suppress, .none, true, some 4⟩ := by decide +kernel

theorem witness_cellRuns :
    recordsOf [1, 0, 0, 64, 1, 0] = some [⟨1, 0, 0⟩, ⟨64, 1, 0⟩] ∧ recordsOf [1, 0] = none ∧
      recordFor 5 ⟨1, 0, 0⟩ = .ok ⟨1, .raw, .none, false, none⟩ ∧ recordFor 6 ⟨64, 1, 0⟩ = .error .badCode ∧
      recordFor 3 ⟨0, 2, 0x83⟩ = .error .badLink ∧ recordFor 0 ⟨1, 0, 0⟩ = .ok ⟨1, .raw, .none, false, none⟩ ∧
      fresh.cells.pendingValid = false ∧ (fresh.commitDraft 9).cells.pendingValid = true := by decide +kernel

theorem witness_suppression :
    planeSound counterPlane ∧ counterPlane[(23 : Fin 128)].render = .glyph ∧ counterPlane[(20 : Fin 128)].lead = none ∧
      counterPlane[(20 : Fin 128)].render = .suppress ∧ counterPlane[(20 : Fin 128)].code = 0 ∧
      counterPlane[(22 : Fin 128)].code ≠ 0 ∧ counterPlane[(21 : Fin 128)].lead = some 20 ∧
      suppressed counterPlane 128 21 = true ∧ suppressed counterPlane 128 22 = false := by
  refine ⟨?_, ?_⟩
  · unfold planeSound CellRecord.soundAt; decide +kernel
  · decide +kernel

/-- GLYPH staged in a set with a pending table, and a DIM staging copy whose entry 3 falls. -/
theorem witness_tables :
    tableOfByte 0 = some .glyph ∧ tableOfByte 2 = some .dim ∧ inSet fresh.tables.pendingSet .glyph = false ∧
      inSet (fresh.makePending 1).tables.pendingSet .glyph = true ∧ inSet (0x0B : BitVec 7) .glyph = true ∧
      (0x0B : BitVec 7) &&& fresh.tables.pendingSet = 0 ∧ inSet (4 : BitVec 7) .dim = true ∧
      (fresh.loadEntries .dim 3 [7]).tables.entryFails false .dim 3 = true ∧
      (fresh.loadEntries .dim 3 [7]).tables.entryFails false .dim 2 = false := by decide +kernel

/-- R58, R59, R60: who is charged: the phase-1 entry of a static line with a later entry routed, the later of two steps
that share a column, and the later of two thresholds out of order (100, 300, 300: the threshold in entry 4). -/
theorem test_charged_entries :
    (fresh.loadEntries .route 128 [0x42, 0, 2, 0]).tables.entryFails false .route 128 = true ∧
      (fresh.loadEntries .route 128 [0x42, 0, 2, 0]).tables.entryFails false .route 129 = false ∧
      (fresh.loadEntries .scan 0 [0, 2, 0, 1, 0, 1]).tables.entryFails false .scan 2 = true ∧
      (fresh.loadEntries .scan 0 [0, 2, 0, 1, 0, 1]).tables.entryFails false .scan 1 = false ∧
      (fresh.loadEntries .light 0 [3, 0, 0, 0, 0, 100, 1, 44, 1, 44]).tables.entryFails false .light 4 = true ∧
      (fresh.loadEntries .light 0 [3, 0, 0, 0, 0, 100, 1, 44, 1, 44]).tables.entryFails false .light 3 = false := by
  decide +kernel

/-! ## Hypotheses met: events, tone, light -/

theorem witness_submissions :
    ((queueOf 30 .unsent).entries.countP Entry.ordinary < 31 ∧ (queueOf 30 .unsent).entries.length < 32) ∧
      ¬((queueOf 31 .unsent).entries.countP Entry.ordinary < 31) ∧ (queueOf 31 .unsent).entries.length < 32 ∧
      ((queueOf 31 .unsent).drop 5).entries =
        (queueOf 31 .unsent).entries ++ [⟨31, .lost, 1, 5, .unsent⟩] ∧
      ((queueOf 31 (.sent 0)).entries ++ [entry 31 .lost (.sent 0)]).length = 32 ∧
      (entry 31 .lost (.sent 0)).delivery ≠ .unsent ∧ (nodeIn .online).node.state ≠ .unaddressed := by
  decide +kernel

theorem witness_ack :
    ((queueOf 1 (.sent 0)).entries = [] ++ entry 0 .keyDown (.sent 0) :: [] ∧
      (entry 0 .keyDown (.sent 0)).isSent = true) ∧
      (queueOf 1 .unsent).entries = [] ++ entry 0 .keyDown .unsent :: [] ∧ (entry 0 .keyDown .unsent).isSent = false ∧
      (queueOf 0 .unsent).entries = [] ∧ ((nodeIn .online).setting .resendAfter).toNat ≤ min 15 (2 + 1) := by
  decide +kernel

theorem witness_tone :
    (patternOn (playing .requested 5 1 (some 1)).copy 1 = true ∧ patternOn (playing .requested 5 2 (some 1)).copy 2 = false) ∧
      (playing .requested 5 2 (some 2)).segment < patternSegments (playing .requested 5 2 (some 2)).copy ∧
      patternSegments (playing .alert 5 3 none).copy ≤ (playing .alert 5 3 none).segment ∧
      (nodeIn .online).inReset = false ∧ (7#8).toNat ≤ 7 := by decide +kernel

/-- The last millisecond of segment 1 of pattern 5, and its end. -/
theorem witness_segmentTimes :
    let length := patternDuration (playing .alert 5 1 none).copy 1 * 10
    0 < length ∧ ({ playing .alert 5 1 none with segmentTime := length - 1 } : Play).segmentTime < length ∧
      length ≤ ({ playing .alert 5 1 none with segmentTime := length } : Play).segmentTime := by decide +kernel

/-- A LIGHT table of two thresholds, 100 and 200, with hysteresis 10. -/
def lightTable : Vector Byte 34 := overwriteVector defaultLight 0 [2, 0, 0, 10, 0, 100, 0, 200]

theorem witness_levels :
    lightThresholds lightTable ≤ 15 ∧ lightThreshold lightTable 1 < lightThreshold lightTable 2 ∧
      rawLevel lightTable 100 = 1 ∧ formLevel lightTable 2 190 = 2 ∧ formLevel lightTable 2 189 = 1 ∧
      formLevel lightTable 0 200 = 2 := by decide +kernel

theorem witness_light :
    (measuring .edgeWait 0 0).light.count + 65534 < 65535 ∧
      65535 ≤ (measuring .periodCount 1 0).light.count + 65534 ∧ (measuring .edgeWait 0 0).light.state = .edgeWait ∧
      (measuring .periodCount 0 0).light.state = .periodCount ∧ (measuring .windowCount 9 7).light.state = .windowCount ∧
      (measuring .windowCount 9 7).light.windowSweeps + 1 = ((measuring .windowCount 9 7).setting .lightWindow).toNat ∧
      (measuring .windowCount 9 7).windowCloses = true ∧ (measuring .windowCount 9 6).windowCloses = false ∧
      (measuring .windowWait 0 0).light.state = .windowWait ∧
      (measuring .windowCount 65535 0).light.state = .windowCount ∧ 65535 ≤ (measuring .windowCount 65535 0).light.count ∧
      (measuring .stopped 0 0).light.state = .stopped := by decide +kernel

/-- R121: the count of a window is held at 65535, however long the edge is in coming. -/
theorem test_window_count_held :
    ((measuring .windowCount 65535 0).lsRisingEdge 65534).light.count = 65535 ∧
      ((measuring .windowCount 65534 0).lsRisingEdge 65534).light.count = 65535 := by decide +kernel

/-! ## Hypotheses met: the sweep, the lines, the keys, Node Control -/

/-- The last phase's sense window has ended. -/
def atEnd (s : State) : State := s.withDrive { Drive.reset with phase := 4 }

/-- The sense window of an earlier phase has ended. -/
def phaseOver (phase : Nat) : State := (nodeIn .online).withDrive { Drive.reset with phase := phase }

/-- In the lit window of phase 3 of 4. -/
def lit : State := (nodeIn .online).withDrive { Drive.reset with phase := 3, window := .lit }

theorem witness_sweep :
    (nodeIn .standalone).node.state = .standalone ∧ (setTo (nodeIn .online) .display 1).setting .display = 1 ∧
      (setTo (nodeIn .standalone) .fallback 2).setting .fallback = 2 ∧
      inSet ((nodeIn .online).makePending 16).tables.pendingSet .scan = true ∧
      inSet (nodeIn .online).tables.pendingSet .scan = false := by decide +kernel

/-- A sweep start with a late sample of the last phase's sense window: here in FULL, in WAKE and in OFF. -/
def sensing (s : State) : State := s.withDrive { Drive.reset with phase := 4, window := .sense }

theorem witness_lateSample :
    (sensing (scanning KeyRecord.up)).inReset = false ∧ (sensing (scanning KeyRecord.up)).drive.window = .sense ∧
      inSet (sensing (scanning KeyRecord.up)).tables.pendingSet .keymap = false ∧
      inSet (sensing (scanning KeyRecord.up)).tables.pendingSet .tone = false ∧
      (sensing (scanning KeyRecord.up)).scanner.mode = .full ∧
      (sensing (waking .quiescent ⟨false, 2⟩)).scanner.mode = .wake ∧
      (sensing (waking .quiescent ⟨false, 2⟩)).lightRuns = false ∧
      (sensing (waking .quiescent ⟨false, 2⟩)).light.state = .stopped ∧
      (sensing (waking .quiescent ⟨false, 2⟩)).setting .lightMode ≠ 2 ∧
      (sensing (scanning KeyRecord.up)).tables.pendingSet = 0 := by decide +kernel

/-- A WINDOW measurement that completes with a changed level at the sweep start of a sweep that ends. -/
theorem witness_levelAtSweepStart :
    let s := (setTo (atEnd (measuring .windowCount 9 7)) .eventMask 1).withLight
      { (measuring .windowCount 9 7).light with level := 3 }
    s.light.state = .windowCount ∧ s.light.windowSweeps + 1 = (s.setting .lightWindow).toNat ∧
      formLevel s.tables.light.active s.light.level s.light.count ≠ s.light.level ∧
      (s.setting .eventMask).getLsbD 0 = true := by decide +kernel

/-- A sweep ends with its last sample taken, whatever late sample is given, or with the late sample. -/
theorem witness_sweepEnds (late : Option LateSample) (last : LateSample) :
    (atEnd (scanning KeyRecord.up)).sweepEnds late ∧ (atEnd (scanning KeyRecord.up)).sampleTaken ∧
      (sensing (scanning KeyRecord.up)).sweepEnds (some last) ∧
      (sensing (waking .quiescent ⟨false, 2⟩)).sweepEnds (some last) :=
  ⟨⟨rfl, by decide +kernel, Or.inl rfl⟩, rfl, ⟨rfl, by decide +kernel, Or.inr ⟨rfl, nofun⟩⟩,
    ⟨rfl, by decide +kernel, Or.inr ⟨rfl, nofun⟩⟩⟩

/-- No sweep ends before its last phase, in a lit window, or in a sense window whose sample is neither taken nor late. -/
theorem witness_sweepGoesOn :
    ¬(phaseOver 3).sweepEnds none ∧ ¬lit.sweepEnds (some ⟨1, 0⟩) ∧ ¬(sensing (scanning KeyRecord.up)).sweepEnds none := by
  refine ⟨fun h => absurd h.2.1 (by decide +kernel), fun h => absurd h.2.1 (by decide +kernel), fun h => ?_⟩
  rcases h.2.2 with h | h
  · cases h
  · exact h.2 rfl

/-- R71, R103: the KEY_DOWN of a late sample stands before COMMIT_SHOWN when the Cell Store is last, and after it when the
Cell Store is first. -/
theorem test_lateSample_order :
    let s := setTo ((sensing (scanning ⟨⟨false, 2⟩, none⟩)).commitDraft 9) .eventMask 2
    let kinds := fun (order : SubmitOrder) =>
      (nextOf (execSweepStart ⟨order, some ⟨1, 0⟩⟩ s)).queue.entries.map Entry.kind
    kinds .cellsLightTables = [.commitShown, .keyDown] ∧ kinds .lightTablesCells = [.keyDown, .commitShown] := by
  decide +kernel

/-- A generator whose ON half of length 125 ends at the sweep to come. -/
def blinking : State :=
  (nodeIn .online).withDrive
    { Drive.reset with phase := 4, sweepCounter := 124, blinkA := ⟨true, 0, false⟩, blinkB := ⟨false, 94, false⟩ }

theorem witness_blink :
    blinking.drive.blinkA.restart = false ∧
      blinking.drive.sweepCounter + 1 - blinking.drive.blinkA.start = blinking.setting .blinkAOn ∧
      blinking.drive.blinkB.restart = false ∧
      blinking.drive.sweepCounter + 1 - blinking.drive.blinkB.start = blinking.setting .blinkBOff := by decide +kernel

/-- The lit window with no dark window after it, and with the shortest one. -/
def litFor (onTime : Nat) : State := lit.withDrive { lit.drive with sweep := { lit.drive.sweep with onTime := onTime } }

theorem witness_litLengths :
    (litFor 56).drive.window = .lit ∧ (litFor 56).drive.sweep.onTime = 56 ∧ (litFor 55).drive.window = .lit ∧
      (litFor 55).drive.sweep.onTime < 56 := by decide +kernel

/-- A phase that is not the last is over, or is in its lit window; a dark window and a lit one of k = 56. -/
theorem witness_phases :
    lit.inReset = false ∧ (phaseOver 3).drive.window = .ended ∧
      (phaseOver 3).drive.phase < (phaseOver 3).drive.sweep.phases.toNat ∧ lit.drive.window = .lit ∧
      (phaseOver 3).drive.window ≠ .lit ∧ lit.drive.window ≠ .ended ∧ lit.drive.sweep.onTime < 56 ∧
      lit.litWindowEnd.drive.window = .dark ∧ (litFor 56).litWindowEnd.drive.window = .sense ∧
      (phaseOver 4).drive.sweep.phases.toNat ≤ (phaseOver 4).drive.phase ∧
      (routeEntry lit.drive.sweep.route 0).static = false ∧
      (routeEntry (overwriteVector defaultRoute 256 [0x42]) 128).static = true := by decide +kernel

/-- R24, R25: neither a phase nor a sweep begins in the dark window of phase 3; the sense window does. -/
theorem test_windows_in_order :
    lit.litWindowEnd.phaseStart.drive.phase = 3 ∧ lit.litWindowEnd.sweepOver (some ⟨0, 0⟩) = false ∧
      lit.litWindowEnd.senseWindowStart.drive.window = .sense ∧ (phaseOver 3).phaseStart.drive.phase = 4 ∧
      (atEnd fresh).sweepOver none = true := by decide +kernel

/-- The shape of a sweep holds in a lit window with the longest on-time. -/
theorem witness_sweepShape : (litFor 56).sweepSound ∧ lit.litWindowEnd.sweepSound := by
  refine ⟨⟨?_, ?_, ?_, ?_, fun _ => ?_, nofun⟩, ⟨?_, ?_, ?_, ?_, nofun, fun _ => ?_⟩⟩ <;> decide +kernel

theorem witness_fullSample :
    (sensing (scanning KeyRecord.up)).inReset = false ∧ (sensing (scanning KeyRecord.up)).drive.window = .sense ∧
      (sensing (scanning KeyRecord.up)).scanner.mode = .full ∧
      (sensing (scanning KeyRecord.up)).scanDrive.getLsbD 0 = true ∧
      (sensing (scanning KeyRecord.up)).scanDrive.getLsbD 1 = false ∧ (scanning KeyRecord.up).drive.window ≠ .sense := by
  decide +kernel

/-- The four ways a key's sample acts. -/
theorem witness_oneKey :
    (Debounce.sample ⟨false, 2⟩ true 3).down = true ∧ (Debounce.sample ⟨false, 1⟩ true 3).down = false ∧
      (Debounce.sample ⟨true, 2⟩ false 3).down = false ∧ (Debounce.sample ⟨true, 1⟩ false 3).down = true ∧
      ((scanning ⟨⟨false, 2⟩, none⟩).setting .pressCount).toNat = 3 ∧
      ((scanning ⟨⟨false, 2⟩, none⟩).setting .releaseCount).toNat = 3 := by decide +kernel

theorem witness_anyKeySample :
    (sensing (nodeIn .online)).scanner.mode = .off ∧ (sensing (waking .quiescent ⟨false, 2⟩)).scanner.mode = .wake ∧
      (sensing (waking .quiescent ⟨false, 2⟩)).inReset = false ∧
      (sensing (waking .quiescent ⟨false, 2⟩)).drive.window = .sense ∧
      (waking .quiescent ⟨false, 2⟩).scanner.anyKey = some ⟨false, 2⟩ ∧
      ((waking .quiescent ⟨false, 2⟩).setting .pressCount).toNat ≤ 2 + 1 ∧
      1 + 1 < ((waking .quiescent ⟨false, 1⟩).setting .pressCount).toNat ∧
      (waking .online ⟨false, 2⟩).node.state ≠ .quiescent := by decide +kernel

theorem witness_keyEvents :
    let down := scanning ⟨⟨false, 2⟩, none⟩
    let up := scanning ⟨⟨true, 2⟩, some (pressed 0 none)⟩
    let first := scanning ⟨⟨true, 0⟩, some (pressed 500 none)⟩
    let later := scanning ⟨⟨true, 1⟩, some (pressed 900 (some 100))⟩
    (down.scanDrive.getLsbD 0 = true ∧ (down.key 0).debounce.down = false ∧
      (down.setting .pressCount).toNat ≤ (down.key 0).debounce.count + 1) ∧
      ((up.key 0).debounce.down = true ∧ (up.setting .releaseCount).toNat ≤ (up.key 0).debounce.count + 1 ∧
        (up.key 0).press = some (pressed 0 none)) ∧
      ((first.setting .repeatDelay).toNat * 10 ≤ (pressed 500 none).held ∧
        (first.key 0).press = some (pressed 500 none)) ∧
      ((later.setting .repeatInterval).toNat * 10 ≤ 100 ∧
        (later.key 0).debounce.count + 1 < (later.setting .releaseCount).toNat) := by decide +kernel

theorem witness_linkLoss :
    let s := (nodeIn .online).withNode { (nodeIn .online).node with silence := 500 }
    s.node.state = .online ∧ s.setting .lossTimeout ≠ 0 ∧ (s.setting .lossTimeout).toNat * 10 ≤ s.node.silence ∧
      s.engine = .idle := by decide +kernel

end Sys2Proof.Tests
end

section
/-! What WRITE_CELLS and FILL_CELLS answer and write, check by check (R9, R11, R12), and how patterns are formed
(R6 to R8). -/

namespace Sys2Proof.Machine

/-! ## WRITE_CELLS (R9, R11) -/

theorem exec_writeCells (first : Byte) (bytes : List Byte) (s : State) :
    exec (.writeCells first bytes) s =
      .next (s.takeItem (.writeCells first bytes) (State.serveWriteCells first bytes)) := rfl

/-- A run of 1 to 64 whole records from a cell of the plane comes to R9 step 2. -/
theorem serveWriteCells_wholeRun (s : State) (first : Byte) (bytes : List Byte) (records : List RecordBytes)
    (whole : recordsOf bytes = some records)
    (sized : first.toNat ≤ 127 ∧ 1 ≤ records.length ∧ records.length ≤ 64) :
    State.serveWriteCells first bytes s = s.writeRecords first records := by
  unfold State.serveWriteCells
  rw [whole]
  exact if_pos sized

/-- R9 steps 1 and 2: no run of whole records, an empty or too long one, or one that leaves the plane. -/
theorem serveWriteCells_outOfRange (first : Byte) (bytes : List Byte) (s : State)
    (out : recordsOf bytes = none ∨ 127 < first.toNat ∨ bytes = [] ∨ 64 * 3 < bytes.length ∨
      127 < first.toNat + bytes.length / 3 - 1) :
    State.serveWriteCells first bytes s = refusedWith s .badRange [first] := by
  cases whole : recordsOf bytes with
  | none =>
    unfold State.serveWriteCells
    rw [whole]
  | some records =>
    have length : bytes.length = 3 * records.length := recordsOf_length bytes records whole
    rw [whole, ← List.length_eq_zero_iff] at out
    by_cases sized : first.toNat ≤ 127 ∧ 1 ≤ records.length ∧ records.length ≤ 64
    · have pastPlane : ¬first.toNat + records.length - 1 ≤ 127 := by
        rcases out with notWhole | out
        · cases notWhole
        · omega
      rw [serveWriteCells_wholeRun s first bytes records whole sized]
      exact if_neg pastPlane
    · unfold State.serveWriteCells
      rw [whole]
      exact if_neg sized

theorem writeRecords_rejected (s : State) (first : Byte) (records : List RecordBytes) (failure : Status × Nat)
    (inPlane : first.toNat + records.length - 1 ≤ 127) (rejected : recordsFor first.toNat records = .error failure) :
    s.writeRecords first records = refusedWith s failure.1 [natByte failure.2] := by
  unfold State.writeRecords
  rw [if_pos inPlane, rejected]

theorem writeRecords_accepted (s : State) (first : Byte) (records : List RecordBytes) (written : List CellRecord)
    (inPlane : first.toNat + records.length - 1 ≤ 127) (accepted : recordsFor first.toNat records = .ok written) :
    s.writeRecords first records = served (s.writeDraft first.toNat written) [] := by
  unfold State.writeRecords
  rw [if_pos inPlane, accepted]

/-- A draft cell that a run of accepted records writes holds the record of its own address. -/
theorem writeRun_target (plane : Plane) (first : Nat) (records : List RecordBytes) (written : List CellRecord)
    (accepted : recordsFor first records = .ok written) (a : Fin 128) (i : Nat) (r : RecordBytes)
    (at_ : records[i]? = some r) (target : a.val = first + i) :
    recordFor a.val r = .ok (overwriteVector plane first written)[a] := by
  obtain ⟨length, each⟩ := recordsFor_ok first records written accepted
  obtain ⟨c, written_at, passes⟩ := each i r at_
  obtain ⟨inRun, rfl⟩ := List.getElem?_eq_some_iff.mp written_at
  have cell := writeRun_getElem plane first written a.val a.isLt
  rw [dif_pos (by omega)] at cell
  have place : a.val - first = i := by omega
  simp only [place] at cell
  rw [← target] at passes
  exact passes.trans (congrArg Except.ok cell.symm)

/-- A draft cell outside the run keeps its record. -/
theorem writeRun_other (plane : Plane) (first : Nat) (written : List CellRecord) (a : Fin 128)
    (outside : a.val < first ∨ first + written.length ≤ a.val) :
    (overwriteVector plane first written)[a] = plane[a] := by
  have cell := writeRun_getElem plane first written a.val a.isLt
  rw [dif_neg (by omega)] at cell
  exact cell

theorem writeCells_writesAllOrNone : Claim.WriteCellsWritesAllOrNone := by
  intro s p first code bytes params offered
  refine ⟨fun out => ?_, fun records whole notEmpty notLong inPlane => ?_⟩
  · rw [exec_writeCells, takeItem_refused s p _ code params _ _ _ offered
      (serveWriteCells_outOfRange first bytes s out)]
  · have checked : State.serveWriteCells first bytes s = s.writeRecords first records :=
      serveWriteCells_wholeRun s first bytes records whole ⟨by omega, notEmpty, notLong⟩
    refine ⟨fun i r status at_ fails before => ?_, fun pass => ?_⟩
    · have rejected := recordsFor_error first.toNat records i r status at_ fails before
      have refusal := checked.trans (writeRecords_rejected s first records _ (by omega) rejected)
      rw [exec_writeCells, takeItem_refused s p _ code params _ _ _ offered refusal]
      rfl
    · obtain ⟨written, accepted⟩ := recordsFor_all first.toNat records pass
      have service := checked.trans (writeRecords_accepted s first records written (by omega) accepted)
      have length : written.length = records.length := (recordsFor_ok first.toNat records written accepted).1
      refine ⟨overwriteVector s.cells.draft first.toNat written, ?_,
        writeRun_target s.cells.draft first.toNat records written accepted,
        fun a outside => writeRun_other s.cells.draft first.toNat written a (by omega)⟩
      rw [exec_writeCells, takeItem_served s p _ code params _ _ _ offered service]
      rfl

/-! ## FILL_CELLS (R9, R12) -/

theorem exec_fillCells (first count stride : Byte) (record : RecordBytes) (s : State) :
    exec (.fillCells first count stride record) s =
      .next (s.takeItem (.fillCells first count stride record)
        (State.serveFillCells first count stride record)) := rfl

theorem fillCells_writesAllOrNone : Claim.FillCellsWritesAllOrNone := by
  intro s p first count stride code record params offered inRange
  refine ⟨fun out => ?_, fun status inside fails => ?_, fun written inside passes => ?_⟩
  · have refusal : State.serveFillCells first count stride record s = refusedWith s .badRange [first] := if_neg out
    rw [exec_fillCells, takeItem_refused s p _ code params _ _ _ offered refusal]
  · have refusal : State.serveFillCells first count stride record s = refusedWith s status [first] := by
      unfold State.serveFillCells
      rw [if_pos inside, fails]
    rw [exec_fillCells, takeItem_refused s p _ code params _ _ _ offered refusal]
  · have service : State.serveFillCells first count stride record s =
        served (s.fillDraft first.toNat count.toNat stride.toNat written) [] := by
      unfold State.serveFillCells
      rw [if_pos inside, passes]
    refine ⟨fillPlane written stride.toNat count.toNat first.toNat s.cells.draft, ?_, fun a => ?_⟩
    · rw [exec_fillCells, takeItem_served s p _ code params _ _ _ offered service]
      rfl
    · exact fillPlane_getElem written stride.toNat count.toNat first.toNat s.cells.draft a.val a.isLt

/-- Settles O28: the checks decide between a refusal of the unchanged state and a draft that is fixed cell by cell. -/
theorem cellWritesAreAllOrNone : Obligations.CellWritesAreAllOrNone :=
  ⟨writeCells_writesAllOrNone, fillCells_writesAllOrNone⟩

/-! ## Suppression (R7), one equation for each row of its table -/

section Suppression

variable (plane : Plane) (fuel : Nat) (a : Fin 128)

theorem suppressed_of_render_ne (render : plane[a].render ≠ .suppress) : suppressed plane (fuel + 1) a = false := by
  unfold suppressed
  cases mode : plane[a].render with
  | raw => rfl
  | glyph => rfl
  | suppress => exact absurd mode render

theorem suppressed_of_code_ne (render : plane[a].render = .suppress) (code : plane[a].code ≠ 0) :
    suppressed plane (fuel + 1) a = false := by
  unfold suppressed
  rw [render]
  exact if_pos code

theorem suppressed_of_no_lead (render : plane[a].render = .suppress) (code : plane[a].code = 0)
    (lead : plane[a].lead = none) : suppressed plane (fuel + 1) a = true := by
  unfold suppressed
  rw [render, lead]
  exact if_neg (not_not_intro code)

theorem suppressed_of_lead (lead : Fin 128) (render : plane[a].render = .suppress) (code : plane[a].code = 0)
    (leads : plane[a].lead = some lead) : suppressed plane (fuel + 1) a = suppressed plane fuel lead := by
  rw [suppressed, render, leads]
  exact if_neg (not_not_intro code)

end Suppression

/-- The chain of leads falls (R2), so any number of tests beyond the cell's address decides alike. -/
theorem suppressed_fuel_irrelevant (plane : Plane) (sound : planeSound plane) (n m : Nat) (a : Fin 128)
    (enoughN : a.val < n) (enoughM : a.val < m) : suppressed plane n a = suppressed plane m a := by
  induction n generalizing a m with
  | zero => omega
  | succ n ih =>
    obtain ⟨m, rfl⟩ : ∃ m', m = m' + 1 := ⟨m - 1, by omega⟩
    by_cases render : plane[a].render = .suppress
    · by_cases code : plane[a].code = 0
      · cases leads : plane[a].lead with
        | none => rw [suppressed_of_no_lead _ _ _ render code leads, suppressed_of_no_lead _ _ _ render code leads]
        | some lead =>
          have lower : lead.val < a.val := (sound a).1 lead leads
          rw [suppressed_of_lead _ _ _ lead render code leads, suppressed_of_lead _ _ _ lead render code leads]
          exact ih m lead (by omega) (by omega)
      · rw [suppressed_of_code_ne _ _ _ render code, suppressed_of_code_ne _ _ _ render code]
    · rw [suppressed_of_render_ne _ _ _ render, suppressed_of_render_ne _ _ _ render]

theorem suppression_followsTheLeads : Claim.SuppressionFollowsTheLeads := by
  intro plane a sound
  refine ⟨suppressed_of_render_ne plane 127 a, suppressed_of_code_ne plane 127 a, suppressed_of_no_lead plane 127 a,
    fun lead render code leads => ?_⟩
  have lower : lead.val < a.val := (sound a).1 lead leads
  calc suppressed plane 128 a
      = suppressed plane 127 lead := suppressed_of_lead plane 127 a lead render code leads
    _ = suppressed plane 128 lead := suppressed_fuel_irrelevant plane sound 127 128 lead (by omega) (by omega)

/-! ## Patterns (R6, R8) -/

/-- Mark lights line 7 and no other line. -/
theorem markBits_lit (mark : Bool) (n : Nat) : (markBits mark).getLsbD n = true ↔ n = 7 ∧ mark = true := by
  cases mark with
  | false => simp [markBits]
  | true =>
    have line7 : markBits true = BitVec.twoPow 8 7 := rfl
    rw [line7, BitVec.getLsbD_twoPow]
    simp [eq_comm]

theorem glyph_or_markBits_lit (glyph : Byte) (mark : Bool) (n : Nat) :
    (glyph ||| markBits mark).getLsbD n = true ↔ (n = 7 ∧ mark = true) ∨ glyph.getLsbD n = true := by
  rw [BitVec.getLsbD_or, Bool.or_eq_true, markBits_lit, or_comm]

section Pattern

variable (plane : Plane) (glyphs : Vector Byte 64) (a : Fin 128)

theorem patternOf_raw (render : plane[a].render = .raw) : patternOf plane glyphs a = plane[a].code := by
  simp only [patternOf, render]

theorem patternOf_suppressed (render : plane[a].render = .suppress) (dark : suppressed plane 128 a = true) :
    patternOf plane glyphs a = markBits plane[a].mark := by
  simp only [patternOf, render, dark, if_true]

/-- R8: a SUPPRESS cell that is not suppressed is formed as in GLYPH mode. -/
theorem patternOf_glyph
    (shows : plane[a].render = .glyph ∨ (plane[a].render = .suppress ∧ suppressed plane 128 a = false)) :
    patternOf plane glyphs a = byteAt glyphs plane[a].code.toNat ||| markBits plane[a].mark := by
  rcases shows with render | ⟨render, notDark⟩
  · simp only [patternOf, render]
  · simp only [patternOf, render, notDark, Bool.false_eq_true, if_false]

end Pattern

theorem patterns_formedByMode : Claim.PatternsAreFormedByMode := by
  intro plane glyphs a n _
  refine ⟨fun render => ?_, fun shows => ?_, fun render dark => ?_⟩
  · rw [patternOf_raw plane glyphs a render]
  · rw [patternOf_glyph plane glyphs a shows, glyph_or_markBits_lit]
  · rw [patternOf_suppressed plane glyphs a render dark, markBits_lit]

/-- Settles O31, by the equation of each row of R7's table and of each mode of the pattern. -/
theorem patternsAreFormed : Obligations.PatternsAreFormed := ⟨suppression_followsTheLeads, patterns_formedByMode⟩

end Sys2Proof.Machine
end

section
/-! What a submission does to the Event Queue (R99 to R101, R104), one equation for each of the ways it can be taken. -/

namespace Sys2Proof.Machine

/-! ## A LOST entry absorbs a drop (R101, R102) -/

theorem absorbs_iff (e : Entry) : e.absorbs = true ↔ e.kind = .lost ∧ e.delivery = .unsent := by
  simp [Entry.absorbs, Entry.isSent]

/-- One higher, held at 255: at 255 the bytes' own addition would wrap to 0. -/
theorem absorb_eq (e : Entry) :
    e.absorb = { e with argument := BitVec.ofNat 8 (min 255 (e.argument.toNat + 1)) } := by
  unfold Entry.absorb
  by_cases full : e.argument = 255
  · rw [if_pos full, full]
    rfl
  · have below : e.argument.toNat < 255 := by bv_omega
    have sum : e.argument + 1 = BitVec.ofNat 8 (e.argument.toNat + 1) := by
      rw [BitVec.ofNat_add, BitVec.ofNat_toNat, BitVec.setWidth_eq]
      rfl
    rw [if_neg full, Nat.min_eq_right (by omega), sum]

section Queue

variable (q : EventQueue) (kind : EventKind) (argument : Byte) (time : Half)

/-! ## Room, and the tail that absorbs -/

theorem hasRoom_iff : q.hasRoom = true ↔ q.entries.countP Entry.ordinary < 31 ∧ q.entries.length < 32 := by
  unfold EventQueue.hasRoom
  rw [Bool.and_eq_true, decide_eq_true_iff, decide_eq_true_iff]

theorem tailAbsorbs_iff (l : List Entry) :
    l.getLast?.any Entry.absorbs = true ↔
      ∃ tail, l.getLast? = some tail ∧ tail.kind = .lost ∧ tail.delivery = .unsent := by
  simp only [Option.any_eq_true, absorbs_iff]

/-! ## The three ways a drop is counted (R101) -/

theorem drop_absorbed (before : List Entry) (tail : Entry) (entries : q.entries = before ++ [tail])
    (lost : tail.kind = .lost) (unsent : tail.delivery = .unsent) :
    q.drop time = { q with entries := before ++ [tail.absorb] } := by
  have absorbs : q.entries.getLast?.any Entry.absorbs = true :=
    (tailAbsorbs_iff _).2 ⟨tail, by rw [entries, List.getLast?_concat], lost, unsent⟩
  unfold EventQueue.drop
  rw [if_pos absorbs, entries, mapTail_append]

theorem drop_lostEntry (noTail : ¬q.entries.getLast?.any Entry.absorbs = true) (place : q.entries.length < 32) :
    q.drop time = q.append .lost 1 time := by
  unfold EventQueue.drop
  rw [if_neg noTail, if_pos place]

theorem drop_pendingLoss (noTail : ¬q.entries.getLast?.any Entry.absorbs = true) (full : 32 ≤ q.entries.length) :
    q.drop time = { q with pendingLoss := min 255 (q.pendingLoss + 1) } := by
  unfold EventQueue.drop
  rw [if_neg noTail, if_neg (Nat.not_lt.mpr full)]
  rfl

/-! ## Append or drop (R100) -/

theorem take_appended (room : q.entries.countP Entry.ordinary < 31 ∧ q.entries.length < 32) :
    q.take kind argument time = q.append kind argument time := if_pos ((hasRoom_iff q).2 room)

theorem take_dropped (noRoom : ¬(q.entries.countP Entry.ordinary < 31 ∧ q.entries.length < 32)) :
    q.take kind argument time = q.drop time := if_neg (mt (hasRoom_iff q).1 noRoom)

end Queue

/-! ## Submission (R100, R104) -/

theorem submit_unaddressed (s : State) (kind : EventKind) (argument : Byte)
    (unaddressed : s.node.state = .unaddressed) : s.submit kind argument = s := if_pos unaddressed

theorem submit_addressed (s : State) (kind : EventKind) (argument : Byte) (addressed : s.node.state ≠ .unaddressed) :
    s.submit kind argument = s.withQueue (s.queue.take kind argument s.node.time) := if_neg addressed

/-- Settles O37, by the equation of each way a submission is taken. -/
theorem submissionsAreAppendedOrCounted : Obligations.SubmissionsAreAppendedOrCounted := by
  intro s kind argument q room
  refine ⟨submit_unaddressed s kind argument, fun addressed hasRoom => ?_,
    fun before tail addressed noRoom entries lost unsent => ?_, fun addressed noRoom other => ?_⟩
  · rw [submit_addressed s kind argument addressed, take_appended _ _ _ _ hasRoom]
    rfl
  · rw [submit_addressed s kind argument addressed, take_dropped _ _ _ _ noRoom,
      drop_absorbed _ _ before tail entries lost unsent, absorb_eq]
  · have noTail : ¬q.entries.getLast?.any Entry.absorbs = true := fun absorbs => by
      obtain ⟨tail, last, lost, unsent⟩ := (tailAbsorbs_iff _).1 absorbs
      exact (other tail last).elim (· lost) (· unsent)
    rw [submit_addressed s kind argument addressed, take_dropped _ _ _ _ noRoom]
    refine ⟨fun place => ?_, fun full => ?_⟩
    · rw [drop_lostEntry _ _ noTail place]
      rfl
    · rw [drop_pendingLoss _ _ noTail full]

end Sys2Proof.Machine
end

section
/-! The light level a result forms (R125): the raw level of ascending thresholds, and one equation for each of the ways
it moves the held level. -/

namespace Sys2Proof.Machine

/-! ## Counting what holds up to a point and not beyond -/

/-- A predicate that passes from each number below `n` to every smaller one holds of just the numbers below its count. -/
theorem lt_count_iff_of_downward {p : Nat → Prop} [DecidablePred p] {n j : Nat}
    (downward : ∀ i k, i < k → k < n → p k → p i) (inRange : j < n) : j < Nat.count p n ↔ p j := by
  constructor
  · intro counted
    by_contra fails
    have noneFrom : Nat.count (fun k => p (j + k)) (n - j) = 0 := Nat.count_iff_forall_not.mpr fun k hk holds => by
      rcases Nat.eq_zero_or_pos k with rfl | later
      · exact fails holds
      · exact fails (downward j (j + k) (by omega) (by omega) holds)
    have counts : Nat.count p n ≤ j := calc
      Nat.count p n = Nat.count p (j + (n - j)) := by rw [Nat.add_sub_cancel' inRange.le]
      _ = Nat.count p j := by rw [Nat.count_add, noneFrom, Nat.add_zero]
      _ ≤ j := Nat.count_le p
    omega
  · intro holds
    have allUpTo : Nat.count p (j + 1) = j + 1 := Nat.count_iff_forall.mpr fun i hi => by
      rcases Nat.lt_succ_iff_lt_or_eq.mp hi with below | rfl
      · exact downward i j below inRange holds
      · exact holds
    calc j < Nat.count p (j + 1) := by omega
      _ ≤ Nat.count p n := Nat.count_monotone p inRange

section Level

variable (v : Vector Byte 34) (level result : Nat)

/-! ## The raw level (R125 step 2) -/

theorem rawLevel_eq_count :
    rawLevel v result = Nat.count (fun j => lightThreshold v (j + 1) ≤ result) (lightThresholds v) :=
  List.countP_eq_length_filter.symm

theorem rawLevel_le : rawLevel v result ≤ lightThresholds v := by
  rw [rawLevel_eq_count]
  exact Nat.count_le _

/-- The raw level has passed just the thresholds at or below the result. -/
theorem le_rawLevel_iff
    (ascend : ∀ i j, 1 ≤ i → i < j → j ≤ lightThresholds v → lightThreshold v i < lightThreshold v j)
    {j : Nat} (first : 1 ≤ j) (last : j ≤ lightThresholds v) :
    j ≤ rawLevel v result ↔ lightThreshold v j ≤ result := by
  obtain ⟨k, rfl⟩ : ∃ k, j = k + 1 := ⟨j - 1, by omega⟩
  rw [rawLevel_eq_count, Nat.succ_le_iff]
  refine lt_count_iff_of_downward (fun a b below inRange reached => ?_) last
  exact (ascend (a + 1) (b + 1) (by omega) (by omega) inRange).le.trans reached

/-! ## Rise and fall (R125 steps 3 and 4) -/

theorem formLevel_risen (notBelow : min level (lightThresholds v) ≤ rawLevel v result) :
    formLevel v level result = rawLevel v result := by
  unfold formLevel
  rcases notBelow.lt_or_eq with rises | same
  · exact if_pos rises
  · simp only [same, lt_irrefl, if_false]

/-- Below the held level, the margin under its threshold decides; T − H is 0 when H is at least T, which no result is
below. -/
theorem formLevel_below (below : rawLevel v result < min level (lightThresholds v)) :
    formLevel v level result =
      if result + lightHysteresis v < lightThreshold v (min level (lightThresholds v)) then rawLevel v result
      else min level (lightThresholds v) := by
  unfold formLevel
  simp only [if_neg below.asymm, if_pos below, Nat.lt_sub_iff_add_lt]

theorem formLevel_fallen (below : rawLevel v result < min level (lightThresholds v))
    (clears : result + lightHysteresis v < lightThreshold v (min level (lightThresholds v))) :
    formLevel v level result = rawLevel v result := by
  rw [formLevel_below v level result below, if_pos clears]

theorem formLevel_kept (below : rawLevel v result < min level (lightThresholds v))
    (within : lightThreshold v (min level (lightThresholds v)) ≤ result + lightHysteresis v) :
    formLevel v level result = min level (lightThresholds v) := by
  rw [formLevel_below v level result below, if_neg within.not_gt]

end Level

/-- Settles O42, by what the raw level counts and the equation of each way the level is formed. -/
theorem levelsRiseAndFallWithHysteresis : Obligations.LevelsRiseAndFallWithHysteresis := by
  intro v level result _ ascend
  exact ⟨rawLevel_le v result, fun _ => le_rawLevel_iff v result ascend, formLevel_risen v level result,
    formLevel_fallen v level result, formLevel_kept v level result⟩

end Sys2Proof.Machine
end

section
/-! Every step as a chain of changes. `Moves` lists the changes a command is made of, each in terms of the field updates
of State and with the condition under which the model makes it; `exec_reach` writes each command as such a chain. An
invariant is then shown once, change by change. -/

namespace Sys2Proof.Machine

open Relation

/-- One change of the state. `light` is the LIGHT table in force when the step begins, by which a completed measurement
forms its level (R124); `wide` stands for the changes that a hard reset, its end and a sweep start make alone. -/
inductive Moves (light : Vector Byte 34) (wide : Prop) : State → State → Prop
  | relays {a : State} (r : Relay) (bounds : a.relayBounded → (a.withRelay r).relayBounded) :
    Moves light wide a (a.withRelay r)
  | idles (a : State) : Moves light wide a (a.withEngine .idle)
  | holds {a : State} (e : Engine) (served : a.engine ≠ .idle ∨ a.gathers = true) :
    Moves light wide a (a.withEngine e)
  | submits {a : State} (kind : EventKind) (argument : Byte) (addressed : a.node.state ≠ .unaddressed) :
    Moves light wide a (a.withQueue (a.queue.take kind argument a.node.time))
  | fills {a : State} (address : Byte) (slots at_ quota resendAfter : Nat) (bytes : List Byte)
    (gathers : a.gathers = true) :
    Moves light wide a (a.withQueue (fillSlots address slots at_ quota bytes (a.queue.ageAndGoBack resendAfter)).2)
  | goesBack {a : State} (gathers : a.gathers = true) : Moves light wide a (a.withQueue a.queue.ageAll.unsendAll)
  | acknowledges {a : State} (before rest : List Entry) (e : Entry) (entries : a.queue.entries = before ++ e :: rest) :
    Moves light wide a (a.withQueue (a.queue.acknowledge rest a.node.time))
  | drafts {a : State} (draft : Plane) (sound : planeSound a.cells.draft → planeSound draft) :
    Moves light wide a (a.withCells { a.cells with draft := draft })
  | commits (a : State) (tag : Byte) : Moves light wide a (a.commitDraft tag)
  | shows (a : State) : Moves light wide a ((a.withCells a.cells.transfer).setFallbackHold false)
  | loads {a : State} (table : Table) (first : Nat) (bytes : List Byte)
    (settled : inSet a.tables.pendingSet table = false) : Moves light wide a (a.loadEntries table first bytes)
  | pends {a : State} (set : BitVec 7) (pass : ∀ table, inSet set table = true → a.tables.passes false table) :
    Moves light wide a (a.makePending set)
  | abandons {a : State} (set : BitVec 7)
    (settled : ∀ table, inSet set table = true → inSet a.tables.pendingSet table = false) :
    Moves light wide a (a.abandonTables set)
  | activates (a : State) (whole : wide) : Moves light wide a a.activateTables
  | stores {a : State} (pairs : List (Byte × Byte)) (inRange : ∀ pair ∈ pairs, pairInRange pair = true) :
    Moves light wide a (a.writeSettings pairs)
  | resets {a : State} (scope : Scope) (busy : a.engine ≠ .idle) : Moves light wide a (a.resetScope scope)
  | times (a : State) (time : Half) : Moves light wide a (a.withNode { a.node with time := time })
  | parks {a : State} (online : a.node.state = .online) : Moves light wide a a.parkNode
  | wakes {a : State} (quiescent : a.node.state = .quiescent) : Moves light wide a a.wakeNode
  | joins {a : State} (address : Byte) (legal : 1 ≤ address.toNat ∧ address.toNat ≤ 62) :
    Moves light wide a (a.takeAddress address)
  | leaves {a : State} (idle : a.engine = .idle) : Moves light wide a a.becomeUnaddressed
  | restarts (a : State) : Moves light wide a a.restartTimer
  | resumes {a : State} (standalone : a.node.state = .standalone) :
    Moves light wide a ((a.withNode { a.node with state := .online, silence := 0 }).withTone
      (if a.plays .alert then none else a.tone))
  | loses {a : State} (online : a.node.state = .online) (idle : a.engine = .idle) : Moves light wide a a.loseLink
  | keys {a : State} (k : Fin 128) (r : KeyRecord) (full : a.scanner.mode = .full)
    (sound : (a.key k).sound → r.sound) : Moves light wide a (a.putKey k r)
  | advances (a : State) : Moves light wide a a.advanceStep
  | rescans (a : State) (activated : Bool) (whole : wide) : Moves light wide a (a.scanSweep activated)
  | anyKeys {a : State} (d : Debounce) (runs : a.scanner.anyKey.isSome = true) : Moves light wide a (a.putAnyKey d)
  | plays {a : State} (tone : Option Play) (kinds : ∀ q ∈ tone, ∃ p ∈ a.tone, q.kind = p.kind) :
    Moves light wide a (a.withTone tone)
  | requests {a : State} (pattern : Byte) (busy : a.engine ≠ .idle) (awake : a.node.state ≠ .quiescent) :
    Moves light wide a (a.startPlay .requested pattern)
  | clicks {a : State} (pattern : Byte) (awake : a.node.state = .online ∨ a.node.state = .standalone) :
    Moves light wide a (a.startPlay .click pattern)
  | measures {a : State} (u : LightUnit) (running : u.state = .stopped ↔ a.light.state = .stopped)
    (bounds : lightThresholds light ≤ 15 → a.light.bounded → u.bounded) : Moves light wide a (a.withLight u)
  | ticks (a : State) : Moves light wide a a.millisecond
  | drives {a : State} (d : Drive) (shape : a.sweepSound → (a.withDrive d).sweepSound) :
    Moves light wide a (a.withDrive d)
  | begins {a : State} (first : a.drive.phase = 1) (whole : wide) : Moves light wide a a.beginSweep
  | releases {a : State} (relay : Relay) (bounds : a.relayBounded → (a.withRelay relay).relayBounded) (whole : wide) :
    Moves light wide a (((a.withRstLow false).withSupplyOk true).withRelay relay)
  | pins (a : State) (low : Bool) (whole : wide) : Moves light wide a (a.withRstLow low)
  | enters (a : State) (low ok : Bool) (relay : Relay) (bounds : (State.reset.withRelay relay).relayBounded)
    (whole : wide) : Moves light wide a (a.heldInReset low ok relay)

/-- A chain of changes. -/
abbrev Reach (light : Vector Byte 34) (wide : Prop) : State → State → Prop := ReflTransGen (Moves light wide)

/-- A property that every change keeps holds at the end of a chain when it holds at its beginning. -/
theorem reach_keeps {light : Vector Byte 34} {wide : Prop} {P : State → Prop}
    (keeps : ∀ {a b : State}, Moves light wide a b → P a → P b) {s t : State} (chain : Reach light wide s t)
    (start : P s) : P t := by
  induction chain with
  | refl => exact start
  | tail _ move ih => exact keeps move ih

section Chains

variable {light : Vector Byte 34} {wide : Prop} (s : State)

/-! ## The relay -/

theorem relayBounded_iff : s.relayBounded ↔ (∀ id, (s.slot id).bounded) ∧ s.relay.errors ≤ 65535 := by
  constructor
  · rintro ⟨one, two, errors⟩
    exact ⟨fun id => by cases id <;> assumption, errors⟩
  · rintro ⟨slots, errors⟩
    exact ⟨slots .one, slots .two, errors⟩

theorem reach_of_relay {t : State} (frame : t = s.withRelay t.relay) (bounds : s.relayBounded → t.relayBounded) :
    Reach light wide s t := by
  rw [frame] at bounds ⊢
  exact .single (.relays _ bounds)

theorem slotFree_bounded : Slot.free.bounded := ⟨Nat.zero_le _, rfl⟩

theorem putSlot_relayBounded (id : SlotId) (x : Slot) (bounded : s.relayBounded) (hx : x.bounded) :
    (s.putSlot id x).relayBounded := by
  obtain ⟨one, two, errors⟩ := bounded
  cases id with
  | one => exact ⟨hx, two, errors⟩
  | two => exact ⟨one, hx, errors⟩

theorem slot_bounded (id : SlotId) (bounded : s.relayBounded) : (s.slot id).bounded :=
  ((relayBounded_iff s).mp bounded).1 id

theorem putSlot_reach (id : SlotId) (x : Slot) (hx : (s.slot id).bounded → x.bounded) :
    Reach light wide s (s.putSlot id x) :=
  reach_of_relay s (putSlot_frame ..) fun bounded => putSlot_relayBounded s id x bounded (hx (slot_bounded s id bounded))

theorem editFrame_reach (id : SlotId) (at_ : Nat) (new : List Byte) : Reach light wide s (s.editFrame id at_ new) :=
  putSlot_reach s id _ fun ⟨length, marks⟩ => by
    unfold Slot.bounded
    rw [overwrite_length]
    exact ⟨length, marks⟩

theorem markReady_reach (id : SlotId) (mark : EndMark) : Reach light wide s (s.markReady id mark) :=
  (putSlot_reach s id { s.slot id with use := .ready, mark := mark } fun bounded => bounded).tail
    (.relays _ fun bounded => bounded)

theorem readyGood_reach (id : SlotId) : Reach light wide s (s.readyGood id) :=
  (editFrame_reach s id _ _).trans (markReady_reach _ id .ed)

theorem countError_reach : Reach light wide s s.countError :=
  .single (.relays _ fun ⟨one, two, _⟩ => ⟨one, two, Nat.min_le_left _ _⟩)

theorem setReceive_reach (rx : Receive) : Reach light wide s (s.setReceive rx) :=
  .single (.relays _ fun bounded => bounded)

theorem fill_reach (id : SlotId) : Reach light wide s (s.fill id) :=
  (putSlot_reach s id ⟨.filling, [], [], .ed⟩ fun _ => slotFree_bounded).trans (setReceive_reach _ _)

theorem openFrame_reach : Reach light wide s s.openFrame := by
  unfold State.openFrame
  split
  · exact fill_reach s .one
  · split
    · exact fill_reach s .two
    · exact setReceive_reach s _

theorem endAborted_reach (id : SlotId) : Reach light wide s (s.endAborted id) := markReady_reach s id .ab

theorem endBad_reach (id : SlotId) : Reach light wide s (s.endBad id) :=
  (endAborted_reach s id).trans (countError_reach _)

/-- R172: the end of a stored frame that is not good. -/
theorem endStored_reach (id : SlotId) (e : FrameEnd) (open_ : e ≠ .closed) : Reach light wide s (s.endStored id e) := by
  cases e with
  | closed => exact absurd rfl open_
  | aborted => exact (endAborted_reach s id).trans (setReceive_reach _ _)
  | cutByIdle => exact (endBad_reach s id).trans (setReceive_reach _ _)
  | cutBySd => exact (endBad_reach s id).trans (openFrame_reach _)
  | oversize =>
    unfold State.endStored
    simp only []
    split
    · exact .refl
    · exact (endBad_reach s id).trans (setReceive_reach _ _)

theorem endUnstored_reach (bytes : Nat) (e : FrameEnd) : Reach light wide s (s.endUnstored bytes e) := by
  cases e with
  | closed => exact (countError_reach s).trans (setReceive_reach _ _)
  | aborted => exact (countError_reach s).trans (setReceive_reach _ _)
  | cutByIdle => exact (countError_reach s).trans (setReceive_reach _ _)
  | cutBySd => exact (countError_reach s).trans (openFrame_reach _)
  | oversize =>
    unfold State.endUnstored
    simp only []
    split
    · exact .refl
    · exact (countError_reach s).trans (setReceive_reach _ _)

theorem endDiscarding_reach (e : FrameEnd) : Reach light wide s (s.endDiscarding e) := by
  cases e with
  | closed => exact setReceive_reach s _
  | aborted => exact setReceive_reach s _
  | cutByIdle => exact setReceive_reach s _
  | cutBySd => exact openFrame_reach s
  | oversize => exact .refl

theorem frameOpen_reach : Reach light wide s s.frameOpen := by
  unfold State.frameOpen
  split
  · exact openFrame_reach s
  · exact endStored_reach s _ _ (by decide)
  · exact endUnstored_reach s _ _
  · exact openFrame_reach s

theorem takeByte_reach (b : Byte) (invalid : Bool) : Reach light wide s (s.takeByte b invalid) := by
  unfold State.takeByte State.storeByte State.countByte
  split
  · exact .refl
  · split
    · next short =>
      refine putSlot_reach s _ _ fun ⟨_, marks⟩ => ⟨?_, ?_⟩
      · simp only [Slot.push, List.length_append, List.length_singleton]
        exact short
      · simp only [Slot.push, List.length_append, List.length_singleton, marks]
    · exact endStored_reach s _ _ (by decide)
  · split
    · exact setReceive_reach s _
    · exact endUnstored_reach s _ _
  · exact .refl

theorem byteReceived_reach (sym : Symbol) : Reach light wide s (s.byteReceived sym) := by
  cases sym with
  | data b => exact takeByte_reach s b false
  | invalid => exact takeByte_reach s 0 true
  | _ => exact .refl

theorem transmitStart_reach (idles : Nat) : Reach light wide s (s.transmitStart idles) := by
  unfold State.transmitStart
  split
  · exact .refl
  · split
    · split
      · exact .refl
      · exact .single (.relays _ fun bounded => bounded)
    · next id rest _ =>
      split
      · exact (putSlot_reach s id { s.slot id with use := .sending } fun bounded => bounded).tail
          (.relays _ fun bounded => bounded)
      · split
        · exact .refl
        · exact .single (.relays _ fun bounded => bounded)

theorem transmitEnd_reach : Reach light wide s s.transmitEnd := by
  unfold State.transmitEnd
  split
  · exact .refl
  · exact (putSlot_reach s _ _ fun _ => slotFree_bounded).tail (.relays _ fun bounded => bounded)

theorem enterRelay_reach (sent : Symbol) (rx : Receive) : Reach light wide s (s.enterRelay sent rx) :=
  .single (.relays _ fun bounded => bounded)

theorem tailEnd_reach (bytes : Nat) (e : FrameEnd) : Reach light wide s (s.tailEnd bytes e) := by
  cases e with
  | closed => exact enterRelay_reach s _ _
  | aborted => exact enterRelay_reach s _ _
  | cutByIdle => exact enterRelay_reach s _ _
  | cutBySd => exact (enterRelay_reach s _ _).trans (openFrame_reach _)
  | oversize =>
    unfold State.tailEnd
    simp only []
    split
    · exact .refl
    · exact enterRelay_reach s _ _

theorem repeatSymbol_reach (rep : Repetition) (sym : Symbol) : Reach light wide s (s.repeatSymbol rep sym) := by
  refine reach_of_relay s (repeatSymbol_frame ..) fun bounded => ?_
  cases sym <;> exact bounded

theorem tailByte_reach (bytes : Nat) (sym : Symbol) : Reach light wide s (s.tailByte bytes sym) := by
  unfold State.tailByte
  split
  · exact .single (.relays _ fun bounded => bounded)
  · exact tailEnd_reach s _ _

theorem tailSymbol_reach (bytes : Nat) (sym : Symbol) : Reach light wide s (s.tailSymbol bytes sym) := by
  cases sym with
  | data b => exact tailByte_reach s bytes _
  | invalid => exact tailByte_reach s bytes _
  | sd => exact tailEnd_reach s bytes .cutBySd
  | ed => exact tailEnd_reach s bytes .closed
  | ab => exact tailEnd_reach s bytes .aborted
  | idle => exact tailEnd_reach s bytes .cutByIdle

theorem bypassSymbol_reach (sym : Symbol) : Reach light wide s (s.bypassSymbol sym) := by
  unfold State.bypassSymbol State.awaitRepetition
  split
  · split
    · exact .refl
    · split
      · exact repeatSymbol_reach s _ _
      · exact .single (.relays _ fun bounded => bounded)
    · exact repeatSymbol_reach s _ _
    · exact repeatSymbol_reach s _ _
    · exact tailSymbol_reach s _ _
  · exact .refl

theorem bypassTailEnd_reach (e : FrameEnd) : Reach light wide s (s.bypassTailEnd e) := by
  unfold State.bypassTailEnd
  split
  · exact .refl
  · exact .refl
  · exact tailEnd_reach s _ _

/-! ## Events, tone and light -/

theorem submit_reach (kind : EventKind) (argument : Byte) : Reach light wide s (s.submit kind argument) := by
  unfold State.submit
  split
  · exact .refl
  · next addressed => exact .single (.submits kind argument addressed)

theorem submitSome_reach (event : Option (EventKind × Byte)) : Reach light wide s (s.submitSome event) := by
  cases event with
  | none => exact .refl
  | some event => exact submit_reach s _ _

theorem silence_reach (tone : Option Play) (same : tone = none ∨ tone = s.tone) :
    Reach light wide s (s.withTone tone) := by
  refine .single (.plays tone fun q hq => ?_)
  rcases same with rfl | rfl
  · cases hq
  · exact ⟨q, hq, rfl⟩

theorem claimSilence_reach : Reach light wide s s.claimSilence := by
  unfold State.claimSilence
  split
  · exact silence_reach s _ (.inl rfl)
  · exact .refl

theorem claimClick_reach (number : Byte) (awake : s.node.state = .online ∨ s.node.state = .standalone) :
    Reach light wide s (s.claimClick number) := by
  unfold State.claimClick
  split
  · exact .refl
  · exact .single (.clicks number awake)

theorem halfPeriodEnd_reach : Reach light wide s s.halfPeriodEnd := by
  unfold State.halfPeriodEnd
  split
  · exact .refl
  · next play found =>
    split
    · exact .single (.plays _ fun q hq => ⟨play, found, by cases hq; rfl⟩)
    · exact .refl

theorem segmentEnd_kind (p q : Play) (h : q ∈ p.segmentEnd) : q.kind = p.kind := by
  unfold Play.segmentEnd Play.envelopeEnd at h
  split at h
  · cases h; rfl
  · split at h
    · cases h; rfl
    · split at h
      · cases h
      · cases h; rfl

theorem segmentEnd_reach : Reach light wide s s.segmentEnd := by
  unfold State.segmentEnd
  split
  · exact .refl
  · next play found =>
    split
    · exact .single (.plays _ fun q hq => ⟨play, found, segmentEnd_kind play q hq⟩)
    · exact .refl

theorem microsecond_kind (p : Play) : p.microsecond.kind = p.kind := by
  unfold Play.microsecond
  split
  · split <;> rfl
  · rfl

theorem formLevel_le (v : Vector Byte 34) (level result : Nat) : formLevel v level result ≤ lightThresholds v := by
  have raw := rawLevel_le v result
  have clamped := Nat.min_le_right level (lightThresholds v)
  unfold formLevel
  simp only []
  split
  · exact raw
  · split
    · split
      · exact raw
      · exact clamped
    · exact clamped

/-- A result within 65535 that forms the level, and a measurement that goes on. -/
theorem measure_reach (same : s.tables.light.active = light) (state : LightState) (count windowSweeps result : Nat)
    (overflow : Bool) (running : state = .stopped ↔ s.light.state = .stopped)
    (bounds : s.light.count ≤ 65535 → count ≤ 65535 ∧ result ≤ 65535) :
    Reach light wide s (s.withLight ⟨state, count, windowSweeps, result, overflow,
      formLevel s.tables.light.active s.light.level result⟩) := by
  refine .single (.measures _ running fun legal ⟨counted, _, _⟩ => ?_)
  obtain ⟨count', result'⟩ := bounds counted
  exact ⟨count', result', (formLevel_le _ _ _).trans (same ▸ legal)⟩

/-- A measurement that goes on with another count. -/
theorem count_reach (state : LightState) (count windowSweeps : Nat)
    (running : state = .stopped ↔ s.light.state = .stopped) (bounds : s.light.count ≤ 65535 → count ≤ 65535) :
    Reach light wide s
      (s.withLight { s.light with state := state, count := count, windowSweeps := windowSweeps }) :=
  .single (.measures _ running fun _ ⟨counted, result, level⟩ => ⟨bounds counted, result, level⟩)

/-- A completed measurement, whose event is submitted before the next one begins: the queue and the light unit do not
look at each other, so the order does not matter. -/
theorem complete_reach (same : s.tables.light.active = light) (state : LightState) (result : Nat) (overflow : Bool)
    (running : state = .stopped ↔ s.light.state = .stopped) (bounds : s.light.count ≤ 65535 → result ≤ 65535) :
    Reach light wide s ((s.completeMeasurement result overflow).lightGoes state 0) := by
  have stored := measure_reach (wide := wide) s same state 0 s.light.windowSweeps result overflow running
    fun counted => ⟨by omega, bounds counted⟩
  have swapped : (s.completeMeasurement result overflow).lightGoes state 0 =
      (s.withLight ⟨state, 0, s.light.windowSweeps, result, overflow,
        formLevel s.tables.light.active s.light.level result⟩).submitSome (s.levelEvent result) := by
    unfold State.completeMeasurement State.submitSome State.submit
    cases s.levelEvent result with
    | none => rfl
    | some event =>
      change State.lightGoes (if s.node.state = .unaddressed then _ else _) state 0 =
        if s.node.state = .unaddressed then _ else _
      split <;> rfl
  rw [swapped]
  exact stored.trans (submitSome_reach _ _)

theorem overflowPeriod_reach (same : s.tables.light.active = light) (runs : s.light.state ≠ .stopped) :
    Reach light wide s s.overflowPeriod :=
  complete_reach s same .edgeWait 65535 true (by simp [runs]) fun _ => Nat.le_refl _

theorem overflowPeriod_state : s.overflowPeriod.light.state = .edgeWait := rfl

theorem lsRisingEdge_reach (same : s.tables.light.active = light) (us : Nat) :
    Reach light wide s (s.lsRisingEdge us) := by
  have overflows : s.light.state ≠ .stopped → Reach light wide s (s.overflowPeriod.lightGoes .periodCount 0) :=
    fun runs => (overflowPeriod_reach s same runs).trans
      (count_reach _ .periodCount 0 _ (by simp [overflowPeriod_state]) fun _ => by omega)
  unfold State.lsRisingEdge
  split
  · exact .refl
  · next state =>
    split
    · exact count_reach s .periodCount 0 _ (by simp [state]) fun _ => by omega
    · exact overflows (by simp [state])
  · next state =>
    split
    · next short => exact complete_reach s same .periodCount _ false (by simp [state]) fun _ => by omega
    · exact overflows (by simp [state])
  · exact .refl
  · next state => exact count_reach s .windowCount _ _ (by simp [state]) fun _ => Nat.min_le_left _ _

theorem inPeriod_runs (period : s.light.inPeriod = true) : s.light.state ≠ .stopped := by
  unfold LightUnit.inPeriod at period
  intro stopped
  simp [stopped] at period

theorem periodOverflow_reach (same : s.tables.light.active = light) : Reach light wide s s.periodOverflow := by
  unfold State.periodOverflow
  split
  · next period => exact overflowPeriod_reach s same (inPeriod_runs s period)
  · exact .refl

theorem windowCloses_state (closes : s.windowCloses = true) : s.light.state = .windowCount := by
  unfold State.windowCloses at closes
  simp only [Bool.and_eq_true, beq_iff_eq] at closes
  exact closes.1

theorem closeWindow_reach (same : s.tables.light.active = light) (closes : s.windowCloses = true) :
    Reach light wide s s.closeWindow :=
  measure_reach s same .windowCount 0 0 s.light.count _ (by simp [windowCloses_state s closes]) fun h => ⟨by omega, h⟩

theorem windowComplete_reach (same : s.tables.light.active = light) : Reach light wide s s.windowComplete := by
  unfold State.windowComplete
  split
  · next closes => exact (closeWindow_reach s same closes).trans (submitSome_reach _ _)
  · exact .refl

theorem microsecond_reach (same : s.tables.light.active = light) : Reach light wide s s.microsecond := by
  have measured : Reach light wide s s.lightMicrosecond := by
    unfold State.lightMicrosecond
    split
    · next period =>
      split
      · exact overflowPeriod_reach s same (inPeriod_runs s period)
      · exact count_reach s s.light.state _ _ Iff.rfl fun _ => by omega
    · exact .refl
  refine measured.tail (.plays _ fun q hq => ?_)
  obtain ⟨p, hp, rfl⟩ := Option.map_eq_some_iff.mp hq
  exact ⟨p, hp, microsecond_kind p⟩

end Chains

end Sys2Proof.Machine
end

section
/-! The Request Engine's and the Frame Relay's commands as chains of changes. -/

namespace Sys2Proof.Machine

open Relation

section Requests

variable {light : Vector Byte 34} {wide : Prop} (s : State)

/-! ## What the owners of the requests do -/

theorem recordFor_sound {target : Nat} {r : RecordBytes} {c : CellRecord} (passes : recordFor target r = .ok c) :
    (∀ lead ∈ c.lead, lead.val < target) ∧ (c.render ≠ .raw → c.code.toNat < 64) := by
  unfold recordFor at passes
  split at passes
  · cases passes
  · split at passes
    · cases passes
    · split at passes
      · cases passes
      · next legal =>
        split at passes
        · cases passes
          exact ⟨fun lead h => (by cases h), fun coded => Nat.lt_of_not_le fun large => legal ⟨coded, large⟩⟩
        · split at passes
          · next lower =>
            cases passes
            exact ⟨fun lead h => (by cases h; exact lower),
              fun coded => Nat.lt_of_not_le fun large => legal ⟨coded, large⟩⟩
          · cases passes

/-- A record that passes at an address may stand at that address and at every higher one. -/
theorem recordFor_soundAt {target : Nat} {r : RecordBytes} {c : CellRecord} (passes : recordFor target r = .ok c)
    (a : Fin 128) (above : target ≤ a.val) : c.soundAt a := by
  obtain ⟨leads, codes⟩ := recordFor_sound passes
  exact ⟨fun lead h => (leads lead h).trans_le above, codes⟩

theorem writeRun_sound (plane : Plane) (first : Nat) (records : List RecordBytes) (written : List CellRecord)
    (accepted : recordsFor first records = .ok written) (sound : planeSound plane) :
    planeSound (overwriteVector plane first written) := by
  intro a
  have length := (recordsFor_ok first records written accepted).1
  by_cases inRun : first ≤ a.val ∧ a.val < first + written.length
  · obtain ⟨r, at_⟩ : ∃ r, records[a.val - first]? = some r :=
      ⟨_, List.getElem?_eq_getElem (by omega)⟩
    exact recordFor_soundAt (writeRun_target plane first records written accepted a _ r at_ (by omega)) a (Nat.le_refl _)
  · rw [writeRun_other plane first written a (by omega)]
    exact sound a

theorem fillPlane_sound (plane : Plane) (first count stride : Nat) (r : RecordBytes) (written : CellRecord)
    (passes : recordFor first r = .ok written) (sound : planeSound plane) :
    planeSound (fillPlane written stride count first plane) := by
  intro a
  obtain ⟨hit, miss⟩ := fillPlane_getElem written stride count first plane a.val a.isLt
  by_cases target : ∃ i < count, a.val = first + i * stride
  · have cell : (fillPlane written stride count first plane)[a] = written := hit target
    obtain ⟨i, _, place⟩ := target
    rw [cell]
    exact recordFor_soundAt passes a (by omega)
  · have cell : (fillPlane written stride count first plane)[a] = plane[a] :=
      miss fun i hi place => target ⟨i, hi, place⟩
    rw [cell]
    exact sound a

/-- An owner's part in a request: a chain of changes that leaves the Request Engine alone. -/
def OwnerPart (light : Vector Byte 34) (wide : Prop) (s t : State) : Prop :=
  Reach light wide s t ∧ t.engine = s.engine

theorem ownerPart_refl : OwnerPart light wide s s := ⟨.refl, rfl⟩

theorem serveReadStatus_part (clearErrors : Bool) : OwnerPart light wide s (s.serveReadStatus clearErrors).state := by
  cases clearErrors with
  | false => exact ownerPart_refl s
  | true => exact ⟨.single (.relays _ fun ⟨one, two, _⟩ => ⟨one, two, Nat.zero_le _⟩), rfl⟩

theorem serveSettingRead_part (first count : Byte) : OwnerPart light wide s (s.serveSettingRead first count).state := by
  unfold State.serveSettingRead
  split <;> exact ownerPart_refl s

/-- R198: what an accepted list of settings changes, by block. -/
theorem writeSettings_eq (pairs : List (Byte × Byte)) :
    s.writeSettings pairs =
      (((s.withSettings (storePairs pairs s.settings)).withDrive
        { s.drive with
          blinkA := if writesAny pairs [.blinkAOn, .blinkAOff] then s.drive.blinkA.wait else s.drive.blinkA
          blinkB := if writesAny pairs [.blinkBOn, .blinkBOff] then s.drive.blinkB.wait else s.drive.blinkB }).withLight
        (if writesAny pairs [.lightMode, .lightWindow] then
          (if (s.withSettings (storePairs pairs s.settings)).lightRuns then
            s.light.start ((s.withSettings (storePairs pairs s.settings)).setting .lightMode) else s.light.stop)
          else s.light)).withNode
        (if writesAny pairs [.lossTimeout] ∧ s.node.state = .online then { s.node with silence := 0 } else s.node) := by
  unfold State.writeSettings State.timeoutWrites State.lightWrites
  by_cases light : writesAny pairs [.lightMode, .lightWindow] = true
  · simp only [light, if_true]
    by_cases timeout : writesAny pairs [.lossTimeout] = true ∧ s.node.state = .online
    · rw [if_pos timeout]
      exact if_pos timeout
    · rw [if_neg timeout]
      exact if_neg timeout
  · simp only [light]
    by_cases timeout : writesAny pairs [.lossTimeout] = true ∧ s.node.state = .online
    · rw [if_pos timeout]
      exact if_pos timeout
    · rw [if_neg timeout]
      exact if_neg timeout

theorem serveSettingWrite_part (pairs : List (Byte × Byte)) :
    OwnerPart light wide s (s.serveSettingWrite pairs).state := by
  unfold State.serveSettingWrite
  split
  · exact ownerPart_refl s
  · next none_ =>
    refine ⟨.single (.stores pairs fun pair hp => ?_), by rw [served, writeSettings_eq]; rfl⟩
    simpa using List.find?_eq_none.mp none_ pair hp

theorem serveQuiesce_part : OwnerPart light wide s s.serveQuiesce.state := by
  unfold State.serveQuiesce
  split
  · next online => exact ⟨.single (.parks online), rfl⟩
  · exact ownerPart_refl s

theorem serveResume_part : OwnerPart light wide s s.serveResume.state := by
  unfold State.serveResume
  split
  · next quiescent => exact ⟨.single (.wakes quiescent), rfl⟩
  · exact ownerPart_refl s

theorem serveNodeReset_part (scope : Byte) : OwnerPart light wide s (s.serveNodeReset scope).state := by
  unfold State.serveNodeReset
  split <;> exact ownerPart_refl s

theorem serveWriteCells_part (first : Byte) (bytes : List Byte) :
    OwnerPart light wide s (State.serveWriteCells first bytes s).state := by
  unfold State.serveWriteCells
  split
  · exact ownerPart_refl s
  · split
    · unfold State.writeRecords
      split
      · split
        · exact ownerPart_refl s
        · next written accepted => exact ⟨.single (.drafts _ (writeRun_sound _ _ _ written accepted)), rfl⟩
      · exact ownerPart_refl s
    · exact ownerPart_refl s

theorem serveFillCells_part (first count stride : Byte) (record : RecordBytes) :
    OwnerPart light wide s (State.serveFillCells first count stride record s).state := by
  unfold State.serveFillCells
  split
  · split
    · exact ownerPart_refl s
    · next written passes => exact ⟨.single (.drafts _ (fillPlane_sound _ _ _ _ _ written passes)), rfl⟩
  · exact ownerPart_refl s

theorem serveReadCells_part (plane first count option : Byte) :
    OwnerPart light wide s (State.serveReadCells plane first count option s).state := by
  unfold State.serveReadCells
  split
  · exact ownerPart_refl s
  · split
    · split <;> exact ownerPart_refl s
    · exact ownerPart_refl s

theorem serveTableLoad_part (table : Byte) (first : Half) (bytes : List Byte) :
    OwnerPart light wide s (State.serveTableLoad table first bytes s).state := by
  unfold State.serveTableLoad
  split
  · exact ownerPart_refl s
  · next t _ =>
    unfold State.loadTable
    split
    · exact ownerPart_refl s
    · next settled =>
      split
      · exact ⟨.single (.loads t _ _ (by simpa using settled)), rfl⟩
      · exact ownerPart_refl s

theorem serveTableRead_part (table copy : Byte) (first : Half) (count : Byte) :
    OwnerPart light wide s (State.serveTableRead table copy first count s).state := by
  unfold State.serveTableRead
  split
  · exact ownerPart_refl s
  · split <;> exact ownerPart_refl s

theorem mem_tablesOf (set : BitVec 7) (table : Table) : table ∈ tablesOf set ↔ inSet set table = true := by
  unfold tablesOf
  rw [List.mem_filter]
  exact and_iff_right (mem_allTables table)

/-- R54, R55: no table that the set names is pending. -/
theorem pendingIn_none (t : TableStore) (set : BitVec 7) :
    t.pendingIn set = none ↔ ∀ table, inSet set table = true → inSet t.pendingSet table = false := by
  unfold TableStore.pendingIn
  simp only [List.find?_eq_none, mem_tablesOf, Bool.not_eq_true]

/-- R56: a copy passes its validation when it has no failing entry. -/
theorem firstFailure_none (t : TableStore) (active : Bool) (table : Table) :
    t.firstFailure active table = none ↔ t.passes active table := by
  unfold TableStore.firstFailure TableStore.passes
  simp only [List.find?_eq_none, List.mem_range, Bool.not_eq_true]

theorem failureIn_none (t : TableStore) (tables : List Table) :
    t.failureIn tables = none ↔ ∀ table ∈ tables, t.passes false table := by
  induction tables with
  | nil => simp [TableStore.failureIn]
  | cons table rest ih =>
    unfold TableStore.failureIn
    cases first : t.firstFailure false table with
    | none => simp [ih, (firstFailure_none t false table).mp first]
    | some entry =>
      have fails : ¬t.passes false table := fun pass => by
        rw [(firstFailure_none t false table).mpr pass] at first
        cases first
      simp [fails]

theorem serveTableActivate_part (set : BitVec 7) : OwnerPart light wide s (s.serveTableActivate set).state := by
  unfold State.serveTableActivate
  split
  · exact ownerPart_refl s
  · split
    · exact ownerPart_refl s
    · split
      · exact ownerPart_refl s
      · next none_ =>
        refine ⟨.single (.pends set fun table named => ?_), rfl⟩
        exact (failureIn_none _ _).mp none_ table ((mem_tablesOf set table).mpr named)

theorem serveTableAbandon_part (set : BitVec 7) : OwnerPart light wide s (s.serveTableAbandon set).state := by
  unfold State.serveTableAbandon
  split
  · exact ownerPart_refl s
  · split
    · exact ownerPart_refl s
    · next none_ => exact ⟨.single (.abandons set ((pendingIn_none _ _).mp none_)), rfl⟩

theorem entriesAfter_split (seq : Byte) (l rest : List Entry) (found : entriesAfter seq l = some rest) :
    ∃ before e, l = before ++ e :: rest ∧ e.seq = seq ∧ e.isSent = true ∧ ∀ other ∈ before, other.seq ≠ seq := by
  induction l with
  | nil => cases found
  | cons x l ih =>
    unfold entriesAfter at found
    split at found
    · next here =>
      split at found
      · next sent =>
        cases found
        exact ⟨[], x, rfl, here, sent, fun _ h => (by cases h)⟩
      · cases found
    · next other =>
      obtain ⟨before, e, rfl, seq_, sent, differ⟩ := ih found
      refine ⟨x :: before, e, rfl, seq_, sent, fun y hy => ?_⟩
      rcases List.mem_cons.mp hy with rfl | hy
      · exact other
      · exact differ y hy

theorem serveAckEvents_part (seq : Byte) : OwnerPart light wide s (s.serveAckEvents seq).state := by
  unfold State.serveAckEvents
  split
  · exact ownerPart_refl s
  · next rest found =>
    obtain ⟨before, e, entries, _⟩ := entriesAfter_split seq _ rest found
    exact ⟨.single (.acknowledges before rest e entries), rfl⟩

theorem serveToneStart_part (pattern : Byte) (busy : s.engine ≠ .idle) :
    OwnerPart light wide s (s.serveToneStart pattern).state := by
  unfold State.serveToneStart
  split
  · split
    · exact ownerPart_refl s
    · next awake => exact ⟨.single (.requests pattern busy awake), rfl⟩
  · exact ownerPart_refl s

/-! ## The Request Engine -/

theorem closeReply_reach (p : Processing) : Reach light wide s (s.closeReply p) :=
  ((editFrame_reach s _ _ _).trans (editFrame_reach _ _ _ _)).trans (editFrame_reach _ _ _ _)

theorem endProcessing_reach (p : Processing) (due : Option Scope) (busy : s.engine ≠ .idle ∨ s.gathers = true) :
    Reach light wide s (s.endProcessing p due) := by
  have closed : Reach light wide s (if p.broadcast then s else s.closeReply p) := by
    split
    · exact .refl
    · exact closeReply_reach s p
  have same : ∃ r, (if p.broadcast then s else s.closeReply p) = s.withRelay r := by
    split
    · exact ⟨s.relay, rfl⟩
    · exact ⟨_, closeReply_frame s p⟩
  unfold State.endProcessing
  simp only []
  generalize (if p.broadcast then s else s.closeReply p) = u at closed same
  obtain ⟨r, rfl⟩ := same
  cases due with
  | none => exact (closed.trans (readyGood_reach _ _)).tail (.idles _)
  | some scope => exact closed.tail (.holds _ busy)

theorem afterItem_reach (p : Processing) (stop : Bool) (due : Option Scope)
    (busy : s.engine ≠ .idle ∨ s.gathers = true) : Reach light wide s (s.afterItem p stop due) := by
  unfold State.afterItem
  split
  · exact endProcessing_reach s p due busy
  · exact .single (.holds _ busy)

theorem writeReply_engine (p : Processing) (item : List Byte) : (s.writeReply p item).engine = s.engine := by
  rw [writeReply_frame]; rfl

theorem processing_busy {p : Processing} (h : s.processing = some p) : s.engine = .taking p := by
  unfold State.processing at h
  split at h
  · cases h
  · next p' engine => cases h; exact engine
  · cases h

theorem taking_busy {p : Processing} (h : s.processing = some p) : s.engine ≠ .idle := by
  rw [processing_busy s h]; exact fun h => by cases h

theorem answerItem_reach (p : Processing) (code : Byte) (params : List Byte) (serve : State → Served)
    (busy : s.engine ≠ .idle) (part : OwnerPart light wide s (serve s).state) :
    Reach light wide s (s.answerItem p code params serve) := by
  obtain ⟨chain, engine⟩ := part
  unfold State.answerItem
  split
  · exact (chain.trans (editFrame_reach _ _ _ _)).trans
      (afterItem_reach _ _ _ _ (.inl (by rw [← State.writeReply, writeReply_engine, engine]; exact busy)))
  · exact endProcessing_reach s _ _ (.inl busy)

theorem broadcastItem_reach (p : Processing) (params : List Byte) (executes : Bool) (serve : State → Served)
    (busy : s.engine ≠ .idle) (part : OwnerPart light wide s (serve s).state) :
    Reach light wide s (s.broadcastItem p params executes serve) := by
  obtain ⟨chain, engine⟩ := part
  unfold State.broadcastItem
  split
  · exact chain.trans (afterItem_reach _ _ _ _ (.inl (by rw [engine]; exact busy)))
  · exact afterItem_reach s _ _ _ (.inl busy)

/-- A request command is its owner's part and what the Request Engine does around it. -/
theorem takeItem_reach (c : Instr) (serve : State → Served)
    (part : s.engine ≠ .idle → OwnerPart light wide s (serve s).state) : Reach light wide s (s.takeItem c serve) := by
  unfold State.takeItem
  split
  · exact .refl
  · next p taking =>
    have busy := taking_busy s taking
    split
    · exact .refl
    · split
      · split
        · exact broadcastItem_reach s p _ _ serve busy (part busy)
        · exact answerItem_reach s p _ _ serve busy (part busy)
      · exact .refl

theorem takeMalformed_reach : Reach light wide s s.takeMalformed := by
  unfold State.takeMalformed
  split
  · exact .refl
  · next p taking =>
    have busy := taking_busy s taking
    split
    · exact .refl
    · split
      · exact endProcessing_reach s p none (.inl busy)
      · split
        · exact (editFrame_reach s _ _ _).trans
            (endProcessing_reach _ _ _ (.inl (by rw [← State.writeReply, writeReply_engine]; exact busy)))
        · exact endProcessing_reach s _ none (.inl busy)

theorem takeUnknown_reach (code : Byte) (params : List Byte) : Reach light wide s (s.takeUnknown code params) := by
  unfold State.takeUnknown
  split
  · exact .refl
  · next p taking =>
    have busy := taking_busy s taking
    split
    · split
      · exact broadcastItem_reach s p _ _ _ busy (ownerPart_refl s)
      · exact answerItem_reach s p _ _ _ busy (ownerPart_refl s)
    · exact .refl

theorem resetDue_reach : Reach light wide s s.resetDue := by
  unfold State.resetDue
  split
  · exact .refl
  · exact .refl
  · next due =>
    exact ((ReflTransGen.single (.resets _ (by rw [due]; exact fun h => by cases h))).trans (readyGood_reach _ _)).tail
      (.idles _)

/-! ## The end of a good frame -/

/-- R161: the return from STANDALONE, whose submission looks at no field that its other changes write after it. -/
theorem returnOnline_eq : s.returnOnline = Claim.resumed s := by
  unfold State.returnOnline State.claimLinkResumed Claim.resumed
  change (State.submit (if s.plays .alert then _ else _) _ _).restartTimer = _
  split <;> rfl

theorem reportGoodFrame_reach : Reach light wide s s.reportGoodFrame := by
  unfold State.reportGoodFrame
  split
  · exact .refl
  · exact .single (.restarts s)
  · next standalone =>
    rw [returnOnline_eq]
    exact (ReflTransGen.single (.resumes standalone)).tail (.submits _ _ (fun h => by cases h))
  · exact .refl

theorem enumAccepted_next (bytes : List Byte) (accepted : enumAccepted bytes = true) :
    1 ≤ (enumNext bytes).toNat ∧ (enumNext bytes).toNat ≤ 63 := by
  unfold enumAccepted at accepted
  simp only [Bool.and_eq_true, decide_eq_true_eq] at accepted
  exact ⟨accepted.1.1.2, accepted.1.2⟩

theorem enumerate_reach (id : SlotId) (bytes : List Byte) (idle : s.engine = .idle) :
    Reach light wide s (s.enumerate id bytes) := by
  unfold State.enumerate
  split
  · next taken =>
    split
    · next below =>
      exact (ReflTransGen.single (.joins _ ⟨(enumAccepted_next bytes taken.1).1, below⟩)).trans (editFrame_reach _ _ _ _)
    · unfold State.enumExhausted
      refine ReflTransGen.trans ?_ (editFrame_reach _ _ _ _)
      split
      · exact .single (.leaves idle)
      · exact .refl
  · exact .refl

theorem gatherPass_reach (id : SlotId) (gathers : s.gathers = true) :
    Reach light wide s (s.gatherPass id (s.slot id).bytes) := by
  unfold State.gatherPass
  split
  · refine (ReflTransGen.single (.fills _ _ _ _ _ _ gathers)).trans (putSlot_reach _ _ _ fun bounded => ?_)
    obtain ⟨length, marks⟩ := bounded
    have same : (s.gatherFill (s.slot id).bytes).1.length = (s.slot id).bytes.length := fillSlots_length ..
    exact ⟨same.trans_le length, marks.trans same.symm⟩
  · exact .refl

theorem ownsCommand_gathers (bytes : List Byte) (owns : s.ownsCommand bytes = true) : s.gathers = true := by
  unfold State.ownsCommand at owns
  exact (Bool.and_eq_true _ _ ▸ owns).1

theorem handOver_reach (id : SlotId) (idle : frameKind (s.slot id).bytes = 1 → s.engine = .idle) :
    Reach light wide s (s.handOver id (s.slot id).bytes) := by
  unfold State.handOver
  split
  · next enumerates => exact (enumerate_reach s id _ (idle enumerates)).trans (readyGood_reach _ _)
  · split
    · next gather => exact (gatherPass_reach s id gather.2).trans (readyGood_reach _ _)
    · split
      · next command => exact afterItem_reach s _ _ _ (.inr (ownsCommand_gathers s _ command.2))
      · exact readyGood_reach s id

theorem mustWait_enumerate {bytes : List Byte} (free : ¬s.mustWait bytes = true) (kind : frameKind bytes = 1) :
    s.engine = .idle := by
  unfold State.mustWait State.engineBusy at free
  simpa [kind] using free

theorem endGood_reach (id : SlotId) (free : ¬s.mustWait (s.slot id).bytes = true) :
    Reach light wide s (s.endGood id) := by
  have slot : ((s.setReceive .between).reportGoodFrame).slot id = s.slot id := by
    rw [reportGoodFrame_frame]; cases id <;> rfl
  have engine : ((s.setReceive .between).reportGoodFrame).engine = s.engine := by rw [reportGoodFrame_frame]; rfl
  unfold State.endGood
  rw [← slot]
  refine ((setReceive_reach s _).trans (reportGoodFrame_reach _)).trans (handOver_reach _ id fun kind => ?_)
  rw [engine]
  exact mustWait_enumerate s free (slot ▸ kind)

theorem frameEnd_reach (e : FrameEnd) : Reach light wide s (s.frameEnd e) := by
  unfold State.frameEnd
  split
  · exact .refl
  · next id _ =>
    by_cases closed : e = .closed
    · subst closed
      unfold State.endStored
      simp only []
      split
      · split
        · exact .refl
        · next free => exact endGood_reach s id free
      · exact (endBad_reach s id).trans (setReceive_reach _ _)
    · exact endStored_reach s id e closed
  · exact endUnstored_reach s _ e
  · exact endDiscarding_reach s e

theorem goBack_reach : Reach light wide s s.goBack := by
  unfold State.goBack
  split
  · next due => exact .single (.goesBack due.1)
  · exact .refl

theorem linkLost_online (lost : s.linkLost = true) : s.node.state = .online ∧ s.engine = .idle := by
  unfold State.linkLost State.linkTimer State.engineBusy at lost
  simp only [Bool.and_eq_true, beq_iff_eq, Bool.not_eq_true', bne_eq_false_iff_eq] at lost
  refine ⟨?_, lost.2⟩
  cases state : s.node.state <;> simp_all

end Requests

end Sys2Proof.Machine
end

section
/-! The Key Scanner's commands and the sweep start as chains of changes, and from them every command and every step. -/

namespace Sys2Proof.Machine

open Relation

section Samples

variable {light : Vector Byte 34} {wide : Prop} (s : State)

/-! ## One key's sample -/

theorem clicks_awake (press : PressRecord) (h : s.clicks press = true) :
    s.node.state = .online ∨ s.node.state = .standalone := by
  unfold State.clicks at h
  simp only [Bool.and_eq_true, Bool.or_eq_true, beq_iff_eq] at h
  exact h.2

theorem reportDown_reach (press : PressRecord) : Reach light wide s (s.reportDown press) := by
  unfold State.reportDown
  split
  · exact submit_reach s _ _
  · exact .refl

theorem pressSilence_reach (press : PressRecord) : Reach light wide s (s.pressSilence press) := by
  unfold State.pressSilence
  split
  · exact claimSilence_reach s
  · exact .refl

theorem pressClick_reach (press : PressRecord) : Reach light wide s (s.pressClick press) := by
  unfold State.pressClick
  split
  · next clicks => exact claimClick_reach s _ (clicks_awake s press clicks)
  · exact .refl

theorem becomeDown_reach (k : Fin 128) (full : s.scanner.mode = .full) : Reach light wide s (s.becomeDown k) :=
  (((ReflTransGen.single (.keys k _ full fun _ => rfl)).trans (reportDown_reach _ _)).trans
    (pressSilence_reach _ _)).trans (pressClick_reach _ _)

theorem becomeUp_reach (k : Fin 128) (full : s.scanner.mode = .full) : Reach light wide s (s.becomeUp k) := by
  refine (ReflTransGen.single (.keys k KeyRecord.up full fun _ => rfl)).trans ?_
  unfold State.becomeUp State.reportUp
  split
  · exact .refl
  · split
    · exact submit_reach _ _ _
    · exact .refl

/-- A sample that does not turn the level leaves it. -/
theorem sample_down (d : Debounce) (closed : Bool) (threshold : Nat) (stays : ¬d.turns closed threshold = true) :
    (d.sample closed threshold).down = d.down := by
  unfold Debounce.turns at stays
  unfold Debounce.sample
  split
  · rfl
  · next differs =>
    split
    · next reached => exact absurd (by simp [differs, reached]) stays
    · rfl

theorem holdKey_reach (k : Fin 128) (d : Debounce) (full : s.scanner.mode = .full)
    (same : d.down = (s.key k).debounce.down) : Reach light wide s (s.holdKey k d) := by
  unfold State.holdKey
  split
  · next press => exact .single (.keys k _ full fun sound => by
      unfold KeyRecord.sound at sound ⊢; rw [same, sound, press])
  · next record press =>
    have held : ∀ record', (s.key k).sound → (⟨d, some record'⟩ : KeyRecord).sound := fun _ sound => by
      unfold KeyRecord.sound at sound ⊢; rw [same, sound, press]; rfl
    split
    · exact (ReflTransGen.single (.keys k _ full (held _))).trans (submit_reach _ _ _)
    · exact .single (.keys k _ full (held _))

theorem sampleKey_reach (k : Fin 128) (closed : Bool) (full : s.scanner.mode = .full) :
    Reach light wide s (s.sampleKey k closed) := by
  unfold State.sampleKey
  simp only []
  split
  · split
    · exact becomeDown_reach s k full
    · exact becomeUp_reach s k full
  · next stays =>
    have same := sample_down _ _ _ stays
    split
    · exact holdKey_reach s k _ full same
    · exact .single (.keys k _ full fun sound => by unfold KeyRecord.sound at sound ⊢; rw [← sound]; exact same)

theorem submit_scanner (kind : EventKind) (argument : Byte) : (s.submit kind argument).scanner = s.scanner := by
  rw [submit_frame]; rfl

theorem becomeDown_scanner (k : Fin 128) :
    (s.becomeDown k).scanner = (s.putKey k ⟨⟨true, 0⟩, some (s.newPress k)⟩).scanner := by
  unfold State.becomeDown
  rw [pressClick_frame, pressSilence_frame, reportDown_frame]
  rfl

theorem becomeUp_scanner (k : Fin 128) : (s.becomeUp k).scanner = (s.putKey k KeyRecord.up).scanner := by
  unfold State.becomeUp
  rw [reportUp_frame]
  rfl

/-- One key's sample writes that key's record and nothing else in the scanner. -/
theorem sampleKey_scanner (k : Fin 128) (closed : Bool) :
    ∃ r, (s.sampleKey k closed).scanner = (s.putKey k r).scanner := by
  unfold State.sampleKey State.holdKey
  simp only []
  split
  · split
    · exact ⟨_, becomeDown_scanner s k⟩
    · exact ⟨_, becomeUp_scanner s k⟩
  · split
    · split
      · exact ⟨_, rfl⟩
      · split
        · exact ⟨_, submit_scanner _ _ _⟩
        · exact ⟨_, rfl⟩
    · exact ⟨_, rfl⟩

theorem sampleKey_mode (k : Fin 128) (closed : Bool) : (s.sampleKey k closed).scanner.mode = s.scanner.mode := by
  obtain ⟨r, h⟩ := sampleKey_scanner s k closed
  rw [h]; rfl

/-! ## A whole sample -/

theorem foldl_sampleIn_reach (columns : Half) (returns : Byte) (l : List (Fin 128)) (full : s.scanner.mode = .full) :
    Reach light wide s (l.foldl (State.sampleIn columns returns) s) := by
  induction l generalizing s with
  | nil => exact .refl
  | cons k rest ih =>
    rw [List.foldl_cons]
    unfold State.sampleIn
    split
    · exact (sampleKey_reach s k _ full).trans (ih _ ((sampleKey_mode s k _).trans full))
    · exact ih s full

theorem reportWake_reach : Reach light wide s s.reportWake := by
  unfold State.reportWake
  split
  · next quiescent => exact (ReflTransGen.single (.wakes quiescent)).trans (submit_reach _ _ _)
  · exact .refl

theorem sampleAnyKey_reach (closed : Bool) : Reach light wide s (s.sampleAnyKey closed) := by
  unfold State.sampleAnyKey
  split
  · exact .refl
  · next d any =>
    have runs : s.scanner.anyKey.isSome = true := by rw [any]; rfl
    split
    · exact (ReflTransGen.single (.anyKeys _ runs)).trans (reportWake_reach _)
    · exact .single (.anyKeys _ runs)

theorem takeSample_reach (columns : Half) (returns : Byte) : Reach light wide s (s.takeSample columns returns) := by
  unfold State.takeSample
  split
  · exact .refl
  · next full => exact (foldl_sampleIn_reach s columns returns _ full).tail (.advances _)
  · exact sampleAnyKey_reach s _

theorem sampled_full (k : Fin 128) (h : s.sampled k = true) : s.scanner.mode = .full := by
  unfold State.sampled at h
  simp only [Bool.and_eq_true, beq_iff_eq] at h
  exact h.1

theorem nearlyDown_full (k : Fin 128) (h : s.nearlyDown k = true) : s.scanner.mode = .full := by
  unfold State.nearlyDown at h
  simp only [Bool.and_eq_true] at h
  exact sampled_full s k h.1.1

theorem nearlyUp_full (k : Fin 128) (h : s.nearlyUp k = true) : s.scanner.mode = .full := by
  unfold State.nearlyUp at h
  simp only [Bool.and_eq_true] at h
  exact sampled_full s k h.1.1

theorem repeats_full (k : Fin 128) (closed : Bool) (h : s.repeats k closed = true) : s.scanner.mode = .full := by
  unfold State.repeats at h
  simp only [Bool.and_eq_true] at h
  exact sampled_full s k h.1.1.1

end Samples

section Sweeps

variable {light : Vector Byte 34} {wide : Prop} (s : State)

/-! ## The Multiplex Driver -/

/-- A change of the window that respects the on-time, and of nothing else. -/
theorem window_reach (w : Window) (lit : w = .lit → s.drive.sweep.onTime ≠ 0)
    (dark : w = .dark → s.drive.sweep.onTime ≠ 56) :
    Reach light wide s (s.withDrive { s.drive with window := w }) :=
  .single (.drives _ fun ⟨first, last, phases, onTime, _, _⟩ => ⟨first, last, phases, onTime, lit, dark⟩)

theorem firstWindow_legal (onTime : Nat) :
    (firstWindow onTime = .lit → onTime ≠ 0) ∧ (firstWindow onTime = .dark → onTime ≠ 56) := by
  unfold firstWindow
  split
  · next zero => exact ⟨nofun, fun _ => by omega⟩
  · next pos => exact ⟨fun _ => pos, nofun⟩

theorem blinkHalfChange_reach (gen : BlinkGen) : Reach light wide s (s.blinkHalfChange gen) := by
  unfold State.blinkHalfChange
  split
  · split
    · exact .single (.drives _ fun shape => shape)
    · exact .refl
  · split
    · exact .single (.drives _ fun shape => shape)
    · exact .refl

theorem phaseStart_reach : Reach light wide s s.phaseStart := by
  rcases phaseStart_cases s with ⟨_, below, begins⟩ | stays
  · rw [begins]
    obtain ⟨lit, dark⟩ := firstWindow_legal s.drive.sweep.onTime
    exact .single (.drives _ fun ⟨_, _, phases, onTime, _, _⟩ => ⟨Nat.le_add_left _ _, below, phases, onTime, lit, dark⟩)
  · rw [stays]

theorem litWindowEnd_reach : Reach light wide s s.litWindowEnd := by
  rcases litWindowEnd_cases s with ⟨_, ends⟩ | stays
  · rw [ends]
    refine window_reach s _ (fun h => ?_) (fun h => ?_)
    · unfold afterLit at h
      split at h <;> cases h
    · unfold afterLit at h
      split at h
      · cases h
      · next short => omega
  · rw [stays]

theorem senseWindowStart_reach : Reach light wide s s.senseWindowStart := by
  rcases senseWindowStart_cases s with ⟨_, begins⟩ | stays
  · rw [begins]
    exact window_reach s .sense nofun nofun
  · rw [stays]

theorem endWindow_reach : Reach light wide s s.endWindow :=
  window_reach s .ended nofun nofun

/-! ## The sweep start -/

theorem transfer_reach : Reach light wide s s.transfer := by
  unfold State.transfer
  split
  · exact .single (.shows s)
  · exact .refl

/-- R121: at a sweep start the unit stays STOPPED or running, and within its bounds under a legal LIGHT table. -/
theorem lightSweep_measures :
    (s.lightSweep.light.state = .stopped ↔ s.light.state = .stopped) ∧
      (lightThresholds s.tables.light.active ≤ 15 → s.light.bounded → s.lightSweep.light.bounded) := by
  rw [lightSweep_light]
  cases state : s.light.state with
  | stopped => simp [state]
  | edgeWait => simp [state]
  | periodCount => simp [state]
  | windowWait => exact ⟨by simp, fun _ ⟨_, result, level⟩ => ⟨Nat.zero_le _, result, level⟩⟩
  | windowCount =>
    simp only []
    split
    · exact ⟨by simp, fun legal ⟨counted, _, _⟩ => ⟨Nat.zero_le _, counted, (formLevel_le _ _ _).trans legal⟩⟩
    · exact ⟨by simp [state], fun _ bounds => bounds⟩

/-- The Light Sense Unit's turn forms its level with the tables of the sweep that ends. -/
theorem lightTurn_reach (ending : State) (same : ending.tables.light.active = light) :
    Reach light wide s (s.lightTurn ending) := by
  obtain ⟨running, bounds⟩ := lightSweep_measures (s.withTables ending.tables)
  have measured : Reach light wide s (s.withLight (s.withTables ending.tables).lightSweep.light) :=
    .single (.measures _ running fun legal => bounds (same ▸ legal))
  have turned : s.lightTurn ending = (s.withLight (s.withTables ending.tables).lightSweep.light).submitSome
      (s.withTables ending.tables).lightSweepEvent := by
    unfold State.lightTurn
    simp only []
    rw [lightSweep_frame (s.withTables ending.tables)]
    cases (s.withTables ending.tables).lightSweepEvent with
    | none => rfl
    | some event =>
      change State.withTables (if s.node.state = .unaddressed then _ else _) _ =
        if s.node.state = .unaddressed then _ else _
      split <;> rfl
  rw [turned]
  exact measured.trans (submitSome_reach _ _)

theorem takeTurn_reach (whole : wide) (ending : State) (same : ending.tables.light.active = light) (turn : Turn) :
    Reach light wide s (ending.takeTurn s turn) := by
  cases turn with
  | light => exact lightTurn_reach s ending same
  | cells => exact (transfer_reach s).trans (submitSome_reach _ _)
  | tables => exact (ReflTransGen.single (.activates s whole)).trans (submitSome_reach _ _)
  | sample returns => exact takeSample_reach s _ _

theorem foldl_takeTurn_reach (whole : wide) (ending : State) (same : ending.tables.light.active = light)
    (turns : List Turn) : Reach light wide s (turns.foldl ending.takeTurn s) := by
  induction turns generalizing s with
  | nil => exact .refl
  | cons turn rest ih => exact (takeTurn_reach s whole ending same turn).trans (ih _)

theorem sweepStart_reach (whole : wide) (same : s.tables.light.active = light) (order : SubmitOrder)
    (late : Option LateSample) : Reach light wide s (s.sweepStart order late) := by
  obtain ⟨_, _, _, _, _, _, drive, _⟩ := sweepChanges_fields s order late
  have counted : Reach light wide s s.countSweep := .single (.drives _
    fun ⟨first, last, phases, onTime, lit, dark⟩ => ⟨Nat.le_refl 1, first.trans last, phases, onTime, lit, dark⟩)
  have turned := counted.trans (foldl_takeTurn_reach s.countSweep whole s same (sweepTurns order late))
  have changed : Reach light wide s (s.sweepChanges (sweepTurns order late)) := turned.tail (.rescans _ _ whole)
  exact changed.tail (.begins (by rw [drive]) whole)

theorem release_bounded (r : Relay) : r.release.slot1 = r.slot1 ∧ r.release.slot2 = r.slot2 ∧
    r.release.errors = r.errors := by
  unfold Relay.release
  split <;> exact ⟨rfl, rfl, rfl⟩

theorem leaveReset_reach (whole : wide) (same : s.tables.light.active = light) : Reach light wide s s.leaveReset := by
  refine (ReflTransGen.single (.releases s.relay.release (fun bounded => ?_) whole)).trans
    (sweepStart_reach (((s.withRstLow false).withSupplyOk true).withRelay s.relay.release) whole same _ _)
  obtain ⟨one, two, errors⟩ := release_bounded s.relay
  obtain ⟨h1, h2, h3⟩ := bounded
  exact ⟨by simpa [one] using h1, by simpa [two] using h2, by simpa [errors] using h3⟩

end Sweeps

/-! ## Every command -/

/-- The commands that begin or end a hard reset, or start a sweep. -/
def isWide : Instr → Bool
  | .hardReset | .resetRelease | .supplyLoss | .supplyInRange | .sweepStart _ => true
  | _ => false

theorem relayReset_bounded (r : Relay) (one : r.slot1 = Slot.free) (two : r.slot2 = Slot.free) (none_ : r.errors = 0) :
    (State.reset.withRelay r).relayBounded := by
  refine ⟨?_, ?_, ?_⟩
  · rw [State.withRelay_relay, one]; exact slotFree_bounded
  · rw [State.withRelay_relay, two]; exact slotFree_bounded
  · rw [State.withRelay_relay, none_]; exact Nat.zero_le _

theorem assertReset_bounded (r : Relay) : (State.reset.withRelay r.assertReset).relayBounded := by
  unfold Relay.assertReset
  split <;> exact relayReset_bounded _ rfl rfl rfl

/-- A chain of changes for each command that neither begins or ends a hard reset nor starts a sweep. -/
theorem exec_reach_narrow {wide : Prop} (c : Instr) (s t : State) (narrow : isWide c = false)
    (h : exec c s = .next t) : Reach s.tables.light.active wide s t := by
  have ite_reach : ∀ {b : Bool} {u : State}, (b = true → Reach s.tables.light.active wide s u) →
      Reach s.tables.light.active wide s (if b then u else s) := fun {b _} chain => by
    cases b
    · exact .refl
    · exact chain rfl
  have ite_reset : ∀ {u : State}, Reach s.tables.light.active wide s u →
      Reach s.tables.light.active wide s (if s.inReset then s else u) := fun chain => by
    split
    · exact .refl
    · exact chain
  cases c with
  | hardReset => cases narrow
  | resetRelease => cases narrow
  | supplyLoss => cases narrow
  | supplyInRange => cases narrow
  | sweepStart order => cases narrow
  | bypassTailEnd e => cases h; exact bypassTailEnd_reach s e
  | frameEnd e => cases h; exact ite_reach fun _ => frameEnd_reach s e
  | goBack => cases h; exact goBack_reach s
  | transmitStart idles => cases h; exact ite_reach fun _ => transmitStart_reach s idles
  | transmitEnd => cases h; exact ite_reach fun _ => transmitEnd_reach s
  | malformedItem => cases h; exact takeMalformed_reach s
  | unknownRequest code params => cases h; exact takeUnknown_reach s code params
  | readStatus clearErrors => cases h; exact takeItem_reach s _ _ fun _ => serveReadStatus_part s clearErrors
  | settingRead first count => cases h; exact takeItem_reach s _ _ fun _ => serveSettingRead_part s first count
  | settingWrite pairs => cases h; exact takeItem_reach s _ _ fun _ => serveSettingWrite_part s pairs
  | setTime time => cases h; exact takeItem_reach s _ _ fun _ => ⟨.single (.times s time), rfl⟩
  | quiesce => cases h; exact takeItem_reach s _ _ fun _ => serveQuiesce_part s
  | resume => cases h; exact takeItem_reach s _ _ fun _ => serveResume_part s
  | nodeReset scope => cases h; exact takeItem_reach s _ _ fun _ => serveNodeReset_part s scope
  | resetEffect => cases h; exact resetDue_reach s
  | writeCells first bytes => cases h; exact takeItem_reach s _ _ fun _ => serveWriteCells_part s first bytes
  | fillCells first count stride r =>
    cases h; exact takeItem_reach s _ _ fun _ => serveFillCells_part s first count stride r
  | readCells plane first count option =>
    cases h; exact takeItem_reach s _ _ fun _ => serveReadCells_part s plane first count option
  | commit tag => cases h; exact takeItem_reach s _ _ fun _ => ⟨.single (.commits s tag), rfl⟩
  | tableLoad table first entries =>
    cases h; exact takeItem_reach s _ _ fun _ => serveTableLoad_part s table first entries
  | tableRead table copy first count =>
    cases h; exact takeItem_reach s _ _ fun _ => serveTableRead_part s table copy first count
  | tableActivate set => cases h; exact takeItem_reach s _ _ fun _ => serveTableActivate_part s set
  | tableAbandon set => cases h; exact takeItem_reach s _ _ fun _ => serveTableAbandon_part s set
  | ackEvents seq => cases h; exact takeItem_reach s _ _ fun _ => serveAckEvents_part s seq
  | toneStart pattern => cases h; exact takeItem_reach s _ _ (serveToneStart_part s pattern)
  | toneStop => cases h; exact takeItem_reach s _ _ fun _ => ⟨silence_reach s _ (.inl rfl), rfl⟩
  | blinkHalfChange gen => cases h; exact blinkHalfChange_reach s gen
  | phaseStart => cases h; exact ite_reset (phaseStart_reach s)
  | litWindowEnd => cases h; exact ite_reset (litWindowEnd_reach s)
  | senseWindowStart => cases h; exact ite_reset (senseWindowStart_reach s)
  | keySample returns => cases h; exact ite_reach fun _ => (takeSample_reach s _ returns).trans (endWindow_reach _)
  | becomingDown key => cases h; exact ite_reach fun near => becomeDown_reach s key (nearlyDown_full s key near)
  | becomingUp key => cases h; exact ite_reach fun near => becomeUp_reach s key (nearlyUp_full s key near)
  | keyRepeat key closed =>
    cases h; exact ite_reach fun near => sampleKey_reach s key closed (repeats_full s key closed near)
  | wakeReport => cases h; exact ite_reach fun _ => sampleAnyKey_reach s true
  | linkLossExpiry =>
    cases h; exact ite_reach fun lost => .single (.loses (linkLost_online s lost).1 (linkLost_online s lost).2)
  | halfPeriodEnd => cases h; exact halfPeriodEnd_reach s
  | segmentEnd => cases h; exact segmentEnd_reach s
  | lsRisingEdge us => cases h; exact lsRisingEdge_reach s rfl us
  | periodOverflow => cases h; exact periodOverflow_reach s rfl
  | windowComplete => cases h; exact windowComplete_reach s rfl
  | frameOpen => cases h; exact ite_reach fun _ => frameOpen_reach s
  | byteReceived sym => cases h; exact ite_reach fun _ => byteReceived_reach s sym
  | bypassRepeat sym => cases h; exact bypassSymbol_reach s sym
  | millisecondTick => cases h; exact ite_reset (.single (.ticks s))

/-- A chain of changes for every command. -/
theorem exec_reach {wide : Prop} (whole : wide) (c : Instr) (s t : State) (h : exec c s = .next t) :
    Reach s.tables.light.active wide s t := by
  by_cases narrow : isWide c = false
  · exact exec_reach_narrow c s t narrow h
  · cases c with
    | hardReset =>
      cases h
      unfold State.hardReset
      split
      · exact .single (.pins s true whole)
      · exact .single (.enters s true true _ (assertReset_bounded _) whole)
    | resetRelease =>
      cases h
      unfold State.resetRelease
      split
      · split
        · exact leaveReset_reach s whole rfl
        · exact .single (.pins s false whole)
      · exact .refl
    | supplyLoss =>
      cases h
      unfold State.supplyLoss
      split
      · exact .single (.enters s _ _ _ (relayReset_bounded _ rfl rfl rfl) whole)
      · exact .refl
    | supplyInRange =>
      cases h
      unfold State.supplyInRange
      split
      · exact .refl
      · split
        · exact .single (.enters s _ _ _ (relayReset_bounded _ rfl rfl rfl) whole)
        · exact (ReflTransGen.single (.relays _ fun _ => relayReset_bounded Relay.reset rfl rfl rfl)).trans
            (leaveReset_reach _ whole rfl)
    | sweepStart order =>
      cases h
      split
      · exact sweepStart_reach s whole rfl _ _
      · exact .refl
    | _ => exact absurd rfl narrow

/-- Every command gives a next state: no arm of the dispatch ends in a fault or a refusal. -/
theorem exec_next (c : Instr) (s : State) : ∃ t, exec c s = .next t := by
  cases c <;> exact ⟨_, rfl⟩

/-- What every change keeps, every step keeps. -/
theorem step_keeps {P : State → Prop} {s t : State}
    (moves : ∀ {a b : State}, Moves s.tables.light.active True a b → P a → P b)
    (waiting : ∀ rest : List Instr, P s → P (s.withPending rest)) (h : step s = .next t) (start : P s) : P t := by
  unfold step at h
  split at h
  · cases h
    exact reach_keeps moves (microsecond_reach s rfl) start
  · next c rest _ => exact reach_keeps moves (exec_reach trivial c (s.withPending rest) t h) (waiting rest start)

end Sys2Proof.Machine
end

section
/-! What every step keeps of the planes, the settings, the Event Queue, Node Control and the relay: each invariant change
by change. -/

namespace Sys2Proof.Machine

section Kept

variable {light : Vector Byte 34} {wide : Prop} {a b : State}

/-! ## Equations for the changes that are no plain field updates -/

/-- R160: what the loss of the link changes. -/
theorem loseLink_eq (s : State) :
    s.loseLink = (s.withNode { s.node with state := .standalone, fallbackHold := true }).withTone
      (if s.setting .lossTone = 255 then s.tone
        else some (newPlay .alert (s.setting .lossTone) s.tables.tone.active)) := by
  unfold State.loseLink State.lossAlert
  by_cases silent : s.setting .lossTone = 255
  · rw [if_pos silent]; exact if_pos silent
  · rw [if_neg silent]; exact if_neg silent

theorem takeAddress_unaddressed (s : State) (address : Byte) (unaddressed : s.node.state = .unaddressed) :
    s.takeAddress address =
      (s.withNode { s.node with state := .online, address := some address, silence := 0 }).beginMeasurement :=
  if_pos unaddressed

theorem takeAddress_addressed (s : State) (address : Byte) (addressed : s.node.state ≠ .unaddressed) :
    s.takeAddress address = s.withNode { s.node with address := some address } := if_neg addressed

/-! ## The waiting commands -/

theorem moves_pending (move : Moves light wide a b) : b.pending = a.pending := by
  cases move with
  | stores pairs => rw [writeSettings_eq]; rfl
  | joins address => rw [takeAddress_frame]; rfl
  | loses => rw [loseLink_eq]; rfl
  | resets scope => cases scope <;> rfl
  | _ => rfl

theorem exec_pending : Claim.CommandsKeepTheWaitingCommands := fun c s t h =>
  reach_keeps (P := fun u => u.pending = s.pending) (fun move same => (moves_pending move).trans same)
    (exec_reach (wide := True) trivial c s t h) rfl

theorem step_next : Claim.EveryStepGivesANextState := by
  intro s
  unfold State.stepsSafely step
  split
  · exact ⟨_, rfl⟩
  · exact exec_next _ _

/-- Settles O3: `exec_next` for every arm, and no change of a chain writes the waiting commands. -/
theorem commandsRunAndKeepTheQueue : Obligations.CommandsRunAndKeepTheQueue := ⟨step_next, exec_pending⟩

/-! ## Planes (R1, R2) -/

theorem moves_cellsSound (move : Moves light wide a b) (sound : a.cellsSound) : b.cellsSound := by
  obtain ⟨draft, pending, shown⟩ := sound
  have reset : CellStore.reset.draft = Plane.reset := rfl
  cases move with
  | drafts _ keeps => exact ⟨keeps draft, pending, shown⟩
  | commits tag => exact ⟨draft, draft, shown⟩
  | shows => exact ⟨draft, pending, pending⟩
  | resets scope =>
    cases scope with
    | display => exact ⟨planeReset_sound, planeReset_sound, planeReset_sound⟩
    | events => exact ⟨draft, pending, shown⟩
    | full => exact ⟨planeReset_sound, planeReset_sound, planeReset_sound⟩
  | enters => exact ⟨planeReset_sound, planeReset_sound, planeReset_sound⟩
  | stores pairs => rw [writeSettings_eq]; exact ⟨draft, pending, shown⟩
  | joins address => rw [takeAddress_frame]; exact ⟨draft, pending, shown⟩
  | loses => rw [loseLink_eq]; exact ⟨draft, pending, shown⟩
  | _ => exact ⟨draft, pending, shown⟩

theorem leads_stayLower : Claim.LeadsStayLower := fun _ _ sound h =>
  step_keeps moves_cellsSound (fun _ kept => kept) h sound

/-! ## Settings (R196) -/

theorem settingDefault_inRange (n : Setting) : settingInRange n (settingDefault n) = true := by cases n <;> decide

/-- A stored list leaves every setting it does not name. -/
theorem storePairs_unwritten (pairs : List (Byte × Byte)) (names : List Setting) (st : Vector Byte 24) (n : Setting)
    (named : n ∈ names) (unwritten : writesAny pairs names = false) :
    byteAt (storePairs pairs st) (settingId n) = byteAt st (settingId n) := by
  rw [byteAt_storePairs]
  have none_ : (pairs.reverse.find? fun pair => settingOfId pair.1 == some n) = none := by
    rw [List.find?_eq_none]
    intro pair mem names_n
    unfold writesAny at unwritten
    rw [List.any_eq_false] at unwritten
    refine unwritten pair (List.mem_reverse.mp mem) ?_
    rw [eq_of_beq names_n]
    simpa using named
  rw [none_]
  rfl

theorem storePairs_inRange (pairs : List (Byte × Byte)) (st : Vector Byte 24)
    (inRange : ∀ pair ∈ pairs, pairInRange pair = true) (n : Setting)
    (before : settingInRange n (byteAt st (settingId n)) = true) :
    settingInRange n (byteAt (storePairs pairs st) (settingId n)) = true := by
  rw [byteAt_storePairs]
  cases found : pairs.reverse.find? fun pair => settingOfId pair.1 == some n with
  | none => exact before
  | some pair =>
    have hit : (settingOfId pair.1 == some n) = true :=
      List.find?_some (p := fun pair : Byte × Byte => settingOfId pair.1 == some n) found
    have names_n := eq_of_beq hit
    have legal := inRange pair (List.mem_reverse.mp (List.mem_of_find?_eq_some found))
    unfold pairInRange at legal
    rw [names_n] at legal
    exact legal

theorem resetGroup_inRange (group : Setting → Bool) (st : Vector Byte 24) (n : Setting)
    (before : settingInRange n (byteAt st (settingId n)) = true) :
    settingInRange n (byteAt (resetGroup group st) (settingId n)) = true := by
  rw [byteAt_resetGroup]
  split
  · exact settingDefault_inRange n
  · exact before

theorem defaults_inRange (n : Setting) : settingInRange n (byteAt defaultSettings (settingId n)) = true := by
  rw [byteAt_defaultSettings]
  exact settingDefault_inRange n

theorem moves_settingsSound (move : Moves light wide a b) (sound : a.settingsSound) : b.settingsSound := by
  cases move with
  | stores pairs inRange => rw [writeSettings_eq]; exact fun n => storePairs_inRange pairs _ inRange n (sound n)
  | resets scope =>
    cases scope with
    | display => exact fun n => resetGroup_inRange _ _ n (sound n)
    | events => exact fun n => resetGroup_inRange _ _ n (sound n)
    | full => exact defaults_inRange
  | enters => exact defaults_inRange
  | joins address => rw [takeAddress_frame]; exact sound
  | loses => rw [loseLink_eq]; exact sound
  | _ => exact sound

theorem settings_stayInRange : Claim.SettingsStayInRange := fun _ _ sound h =>
  step_keeps moves_settingsSound (fun _ kept => kept) h sound

/-! ## The Event Queue (R96 to R101, R111) -/

theorem queueReset_ordered : EventQueue.reset.ordered :=
  ⟨⟨Nat.zero_le _, Nat.zero_le _⟩, trivial, trivial, Nat.zero_le _, fun _ => rfl⟩

/-- R110, R111: an acknowledgment keeps the queue's order and bounds. -/
theorem acknowledge_ordered (q : EventQueue) (before rest : List Entry) (e : Entry) (time : Half)
    (entries : q.entries = before ++ e :: rest) (h : q.ordered) : (q.acknowledge rest time).ordered := by
  obtain ⟨⟨length, ordinary⟩, seqs, sent, loss, _⟩ := h
  rw [entries] at length ordinary seqs sent
  rw [List.length_append, List.length_cons] at length
  rw [List.countP_append, List.countP_cons] at ordinary
  have left : ∀ n, n = 0 → EventQueue.ordered { q with entries := rest, pendingLoss := n } := fun n zero =>
    ⟨⟨by simp only []; omega, by simp only []; omega⟩, seqsFrom_tail e rest _ (seqsFrom_suffix before _ _ seqs),
      (sentFirst_suffix before _ sent).2, by simp only [zero]; omega, fun _ => zero⟩
  unfold EventQueue.acknowledge EventQueue.recordLoss
  split
  · next none_ => exact left q.pendingLoss none_
  · refine append_ordered _ .lost (natByte q.pendingLoss) time (left 0 rfl) ?_ (fun other => absurd rfl other)
    simp only []
    omega

theorem moves_queueOrdered (move : Moves light wide a b) (ordered : a.queue.ordered) : b.queue.ordered := by
  cases move with
  | submits kind argument => exact take_ordered _ _ _ _ ordered
  | fills => exact fillSlots_ordered _ _ _ _ _ _ (ageAndGoBack_ordered _ _ ordered)
  | goesBack => exact unsendAll_ordered _ (ageAll_ordered _ ordered)
  | acknowledges before rest e entries => exact acknowledge_ordered _ before rest e _ entries ordered
  | leaves => exact queueReset_ordered
  | resets scope =>
    cases scope with
    | display => exact ordered
    | events => exact queueReset_ordered
    | full => exact queueReset_ordered
  | enters => exact queueReset_ordered
  | stores pairs => rw [writeSettings_eq]; exact ordered
  | joins address => rw [takeAddress_frame]; exact ordered
  | loses => rw [loseLink_eq]; exact ordered
  | _ => exact ordered

/-- Settles O38, change by change of the queue. -/
theorem queueOrderIsKept : Obligations.QueueOrderIsKept := fun _ _ ordered h =>
  step_keeps moves_queueOrdered (fun _ kept => kept) h ordered

/-! ## Node Control (R146, R158, R183) -/

/-- R183: a node with a frame in process holds an address. -/
theorem busy_addressed (served : a.engineServed) (busy : a.engine ≠ .idle) :
    a.node.state = .online ∨ a.node.state = .quiescent := served.resolve_left busy

theorem gathers_iff (s : State) : s.gathers = true ↔ s.node.state = .online ∨ s.node.state = .quiescent := by
  unfold State.gathers
  simp only [Bool.or_eq_true, beq_iff_eq]

/-- A node in another state than UNADDRESSED with an address in range. -/
theorem addressHeld_of_state {n : NodeControl} {address : Byte} (state : n.state ≠ .unaddressed)
    (held : n.address = some address) (legal : 1 ≤ address.toNat ∧ address.toNat ≤ 62) : n.addressHeld := by
  refine ⟨⟨fun h => absurd h state, fun h => ?_⟩, fun x hx => ?_⟩
  · rw [held] at h; cases h
  · rw [held] at hx; cases hx; exact legal

theorem addressHeld_restate {n m : NodeControl} (held : n.addressHeld) (addressed : n.state ≠ .unaddressed)
    (state : m.state ≠ .unaddressed) (same : m.address = n.address) : m.addressHeld := by
  obtain ⟨iff, legal⟩ := held
  cases address : n.address with
  | none => exact absurd (iff.mpr address) addressed
  | some x => exact addressHeld_of_state state (same.trans address) (legal x address)

theorem nodeReset_addressHeld : NodeControl.reset.addressHeld := ⟨⟨fun _ => rfl, fun _ => rfl⟩, fun _ h => by cases h⟩

theorem moves_nodeSound (move : Moves light wide a b) (sound : a.nodeSound) : b.nodeSound := by
  obtain ⟨held, served⟩ := sound
  cases move with
  | idles => exact ⟨held, .inl rfl⟩
  | holds e busy =>
    have awake : a.node.state = .online ∨ a.node.state = .quiescent :=
      busy.elim (busy_addressed served) (gathers_iff a).mp
    exact ⟨held, .inr awake⟩
  | resets scope busy =>
    cases scope with
    | display => exact ⟨held, served⟩
    | events => exact ⟨held, served⟩
    | full =>
      have addressed : a.node.state ≠ .unaddressed := by
        rcases busy_addressed served busy with state | state <;> rw [state] <;> decide
      exact ⟨addressHeld_restate held addressed (fun h => by cases h) rfl, .inr (.inl rfl)⟩
  | parks online => exact ⟨addressHeld_restate held (by rw [online]; decide) (fun h => by cases h) rfl, .inr (.inr rfl)⟩
  | wakes quiescent =>
    exact ⟨addressHeld_restate held (by rw [quiescent]; decide) (fun h => by cases h) rfl, .inr (.inl rfl)⟩
  | joins address legal =>
    by_cases unaddressed : a.node.state = .unaddressed
    · rw [takeAddress_unaddressed a address unaddressed]
      exact ⟨addressHeld_of_state (fun h => by cases h) rfl legal, .inr (.inl rfl)⟩
    · rw [takeAddress_addressed a address unaddressed]
      exact ⟨addressHeld_of_state unaddressed rfl legal, served⟩
  | leaves idle => exact ⟨⟨⟨fun _ => rfl, fun _ => rfl⟩, fun _ h => (by cases h)⟩, .inl idle⟩
  | resumes standalone =>
    exact ⟨addressHeld_restate held (by rw [standalone]; decide) (fun h => by cases h) rfl, .inr (.inl rfl)⟩
  | loses online idle =>
    rw [loseLink_eq]
    exact ⟨addressHeld_restate held (by rw [online]; decide) (fun h => by cases h) rfl, .inl idle⟩
  | enters => exact ⟨nodeReset_addressHeld, .inl rfl⟩
  | stores pairs =>
    rw [writeSettings_eq]
    have same : ∀ {c : Prop} [Decidable c], (if c then { a.node with silence := 0 } else a.node).state = a.node.state ∧
        (if c then { a.node with silence := 0 } else a.node).address = a.node.address := fun {c} _ => by
      split <;> exact ⟨rfl, rfl⟩
    obtain ⟨state, address⟩ := same (c := writesAny pairs [.lossTimeout] = true ∧ a.node.state = .online)
    unfold State.nodeSound NodeControl.addressHeld State.engineServed
    simp only [State.withNode_node, State.withNode_engine, State.withLight_engine, State.withDrive_engine,
      State.withSettings_engine, state, address]
    exact ⟨held, served⟩
  | _ => exact ⟨held, served⟩

theorem address_heldWhileAddressed : Claim.AddressIsHeldWhileAddressed := fun _ _ sound h =>
  step_keeps moves_nodeSound (fun _ kept => kept) h sound

/-- R104: only a node that is not UNADDRESSED takes an event, and becoming UNADDRESSED empties the queue. -/
theorem moves_queueEmpty (move : Moves light wide a b) (empty : a.queueEmptyUnaddressed) : b.queueEmptyUnaddressed := by
  cases move with
  | submits kind argument addressed => exact fun state => absurd state addressed
  | fills address slots at_ quota resendAfter bytes gathers =>
    intro state
    rcases (gathers_iff a).mp gathers with other | other <;> cases state.symm.trans other
  | goesBack gathers =>
    intro state
    rcases (gathers_iff a).mp gathers with other | other <;> cases state.symm.trans other
  | acknowledges before rest e entries =>
    intro state
    have none_ := entries.symm.trans (empty state)
    simp at none_
  | leaves => exact fun _ => rfl
  | resets scope =>
    cases scope with
    | display => exact empty
    | events => exact fun _ => rfl
    | full => exact fun _ => rfl
  | enters => exact fun _ => rfl
  | parks => exact fun state => by cases state
  | wakes => exact fun state => by cases state
  | resumes => exact fun state => by cases state
  | loses => rw [loseLink_eq]; exact fun state => by cases state
  | joins address =>
    by_cases unaddressed : a.node.state = .unaddressed
    · rw [takeAddress_unaddressed a address unaddressed]
      exact fun state => by cases state
    · rw [takeAddress_addressed a address unaddressed]
      exact empty
  | stores pairs =>
    rw [writeSettings_eq]
    intro state
    refine empty (state ▸ ?_)
    simp only [State.withNode_node]
    split <;> rfl
  | _ => exact empty

theorem queue_staysEmptyUnaddressed : Claim.QueueStaysEmptyUnaddressed := fun _ _ _ empty h =>
  step_keeps moves_queueEmpty (fun _ kept => kept) h empty

/-- R158: the timer's state is a function of the node state and LOSS_TIMEOUT. -/
theorem linkTimer_stopped_iff (s : State) :
    s.linkTimer = .stopped ↔ s.node.state = .unaddressed ∨ s.node.state = .quiescent ∨
      (s.node.state = .online ∧ s.setting .lossTimeout = 0) := by
  unfold State.linkTimer
  cases s.node.state <;> simp

theorem timerSound_of_zero (s : State) (zero : s.node.silence = 0) : s.timerSound :=
  ⟨by rw [zero]; exact Nat.zero_le _, fun _ => zero⟩

theorem timerSound_congr (same : b.node.silence = a.node.silence) (state : b.node.state = a.node.state)
    (timeout : a.node.state = .online → b.setting .lossTimeout = a.setting .lossTimeout) (sound : a.timerSound) :
    b.timerSound := by
  obtain ⟨bounded, stopped⟩ := sound
  refine ⟨same ▸ bounded, fun h => same ▸ stopped ?_⟩
  rw [linkTimer_stopped_iff, state] at h
  rw [linkTimer_stopped_iff]
  rcases h with h | h | ⟨online, h⟩
  · exact .inl h
  · exact .inr (.inl h)
  · exact .inr (.inr ⟨online, timeout online ▸ h⟩)

/-- R158: a millisecond leaves a stopped timer's silence time and holds a running one's at the limit. -/
theorem millisecond_timerSound (sound : a.timerSound) : a.millisecond.timerSound := by
  obtain ⟨bounded, stopped⟩ := sound
  have timer : a.millisecond.linkTimer = a.linkTimer := rfl
  have silence : a.millisecond.node.silence = a.silenceNext := rfl
  unfold State.timerSound
  rw [timer, silence]
  unfold State.silenceNext
  cases running : a.linkTimer with
  | stopped => exact ⟨bounded, fun _ => stopped running⟩
  | running => exact ⟨Nat.min_le_left _ _, fun h => by cases h⟩
  | expired => exact ⟨Nat.min_le_left _ _, fun h => by cases h⟩

theorem moves_timerSound (move : Moves light wide a b) (sound : a.timerSound) : b.timerSound := by
  cases move with
  | restarts => exact timerSound_of_zero _ rfl
  | parks => exact timerSound_of_zero _ rfl
  | wakes => exact timerSound_of_zero _ rfl
  | leaves => exact timerSound_of_zero _ rfl
  | resumes => exact timerSound_of_zero _ rfl
  | enters => exact timerSound_of_zero _ rfl
  | ticks => exact millisecond_timerSound sound
  | joins address =>
    by_cases unaddressed : a.node.state = .unaddressed
    · rw [takeAddress_unaddressed a address unaddressed]
      exact timerSound_of_zero _ rfl
    · rw [takeAddress_addressed a address unaddressed]
      exact sound
  | loses =>
    rw [loseLink_eq]
    exact ⟨sound.1, fun h => by cases h⟩
  | resets scope =>
    cases scope with
    | display => exact timerSound_congr rfl rfl (fun _ => byteAt_resetGroup _ _ .lossTimeout) sound
    | events => exact timerSound_congr rfl rfl (fun _ => byteAt_resetGroup _ _ .lossTimeout) sound
    | full => exact timerSound_of_zero _ rfl
  | stores pairs =>
    rw [writeSettings_eq]
    by_cases restarts : writesAny pairs [.lossTimeout] = true ∧ a.node.state = .online
    · rw [if_pos restarts]
      exact timerSound_of_zero _ rfl
    · rw [if_neg restarts]
      refine timerSound_congr (a := a) rfl rfl (fun online => ?_) sound
      exact storePairs_unwritten pairs [.lossTimeout] _ .lossTimeout (by decide)
        (Bool.eq_false_iff.mpr fun writes => restarts ⟨writes, online⟩)
  | _ => exact sound

theorem silence_bounded : Claim.SilenceIsBounded := fun _ _ _ sound h =>
  step_keeps moves_timerSound (fun _ kept => kept) h sound

/-- Settles O56, each part change by change. -/
theorem addressAndQueueFollowTheNodeState : Obligations.AddressAndQueueFollowTheNodeState :=
  ⟨address_heldWhileAddressed, queue_staysEmptyUnaddressed, silence_bounded⟩

/-! ## The relay (R170, R178) -/

theorem moves_relayBounded (move : Moves light wide a b) (bounded : a.relayBounded) : b.relayBounded := by
  cases move with
  | relays r bounds => exact bounds bounded
  | releases r bounds => exact bounds bounded
  | enters low ok r bounds => exact bounds
  | resets scope =>
    cases scope with
    | display => exact bounded
    | events => exact bounded
    | full => exact ⟨bounded.1, bounded.2.1, Nat.zero_le _⟩
  | stores pairs => rw [writeSettings_eq]; exact bounded
  | joins address => rw [takeAddress_frame]; exact bounded
  | loses => rw [loseLink_eq]; exact bounded
  | _ => exact bounded

theorem relay_boundsKept : Claim.RelayBoundsAreKept := fun _ _ bounded h =>
  step_keeps moves_relayBounded (fun _ kept => kept) h bounded

end Kept

end Sys2Proof.Machine
end

section
/-! The copies of the tables under the operations of the Table Store, and what every step keeps of the tables, the sweep,
the Key Scanner, the Tone Unit and the Light Sense Unit. -/

namespace Sys2Proof.Machine

section Copies

variable (t u : TableStore) (table other : Table)

/-! ## Copies (R48, R51, R54, R62) -/

theorem bytes_update_ne (f : {n : Nat} → TableRec n → TableRec n) (active : Bool) (differs : other ≠ table) :
    (t.update f table).bytes active other = t.bytes active other := by
  cases table with
  | glyph => cases other with | glyph => exact absurd rfl differs | _ => rfl
  | route => cases other with | route => exact absurd rfl differs | _ => rfl
  | dim => cases other with | dim => exact absurd rfl differs | _ => rfl
  | keymap => cases other with | keymap => exact absurd rfl differs | _ => rfl
  | scan => cases other with | scan => exact absurd rfl differs | _ => rfl
  | light => cases other with | light => exact absurd rfl differs | _ => rfl
  | tone => cases other with | tone => exact absurd rfl differs | _ => rfl

theorem bytes_load_active (at_ : Nat) (bytes : List Byte) :
    (t.update (fun r => r.load at_ bytes) table).bytes true other = t.bytes true other := by
  cases table <;> cases other <;> rfl

theorem bytes_load_staging (at_ : Nat) (bytes : List Byte) :
    (t.update (fun r => r.load at_ bytes) table).bytes false table = overwrite (t.bytes false table) at_ bytes := by
  cases table <;> rfl

theorem generation_load (at_ : Nat) (bytes : List Byte) :
    (t.update (fun r => r.load at_ bytes) table).generation other = t.generation other := by
  cases table <;> cases other <;> rfl

theorem pendingSet_update (f : {n : Nat} → TableRec n → TableRec n) :
    (t.update f table).pendingSet = t.pendingSet := by cases table <;> rfl

/-- Of an update of a set of tables each table sees its own part alone. -/
theorem bytes_updateSet (set : BitVec 7) (f : {n : Nat} → TableRec n → TableRec n) (active : Bool) :
    (t.updateSet set f).bytes active table =
      if inSet set table then (t.update f table).bytes active table else t.bytes active table := by
  cases table <;> (simp only [TableStore.updateSet, TableStore.update, TableStore.bytes]; split <;> rfl)

theorem generation_updateSet (set : BitVec 7) (f : {n : Nat} → TableRec n → TableRec n) :
    (t.updateSet set f).generation table =
      if inSet set table then (t.update f table).generation table else t.generation table := by
  cases table <;> (simp only [TableStore.updateSet, TableStore.update, TableStore.generation]; split <;> rfl)

theorem bytes_abandon (active : Bool) :
    (t.update TableRec.abandon table).bytes active table = t.bytes true table := by
  cases table <;> cases active <;> rfl

theorem generation_abandon : (t.update TableRec.abandon table).generation table = t.generation table := by
  cases table <;> rfl

theorem bytes_activate (active : Bool) :
    (t.update TableRec.activate table).bytes active table = t.bytes false table := by
  cases table <;> cases active <;> rfl

theorem generation_activate : (t.update TableRec.activate table).generation table = t.generation table + 1 := by
  cases table <;> rfl

/-- R62: after the activation of the pending tables. -/
theorem bytes_activatePending (active : Bool) :
    t.activatePending.bytes active table =
      if inSet t.pendingSet table then t.bytes false table else t.bytes active table := by
  have same : t.activatePending.bytes active table =
      (t.updateSet t.pendingSet TableRec.activate).bytes active table := by cases table <;> rfl
  rw [same, bytes_updateSet, bytes_activate]

theorem generation_activatePending :
    t.activatePending.generation table =
      if inSet t.pendingSet table then t.generation table + 1 else t.generation table := by
  have same : t.activatePending.generation table =
      (t.updateSet t.pendingSet TableRec.activate).generation table := by cases table <;> rfl
  rw [same, generation_updateSet, generation_activate]

/-- R54: after the named staging copies were abandoned. -/
theorem bytes_abandonSet (set : BitVec 7) (active : Bool) :
    (t.updateSet set TableRec.abandon).bytes active table =
      if inSet set table then t.bytes true table else t.bytes active table := by
  rw [bytes_updateSet, bytes_abandon]

theorem inSet_or (x y : BitVec 7) : inSet (x ||| y) table = (inSet x table || inSet y table) := BitVec.getLsbD_or

theorem inSet_zero : inSet 0 table = false := BitVec.getLsbD_zero

/-! ## Validation -/

variable {t u table} in
/-- Validation reads nothing but the copy it is asked of. -/
theorem entryFails_congr {x y : Bool} (same : t.bytes x table = u.bytes y table) (i : Nat) :
    t.entryFails x table i = u.entryFails y table i := by
  cases table <;> simp only [TableStore.bytes] at same <;> simp only [TableStore.entryFails, Vector.toList_inj.mp same]

variable {t u table} in
theorem passes_congr {x y : Bool} (same : t.bytes x table = u.bytes y table) (pass : u.passes y table) :
    t.passes x table := fun i hi => (entryFails_congr same i).trans (pass i hi)

end Copies

/-- R57: no entry of a legal DIM table is above 56, and the bytes past its end are 0. -/
theorem dim_le_56 {s : State} (sound : s.tablesSound) (i : Nat) : (byteAt s.tables.dim.active i).toNat ≤ 56 := by
  by_cases inTable : i < 16
  · have pass : dimFails s.tables.dim.active i = false := (sound .dim).1 i inTable
    unfold dimFails at pass
    simp only [Bool.or_eq_false_iff, decide_eq_false_iff_not] at pass
    omega
  · unfold byteAt
    rw [List.getD_eq_default _ _ (by simp only [Vector.length_toList]; omega)]
    decide

/-- R59: a legal schedule has 1 to 16 steps. -/
theorem scanSteps_legal {s : State} (sound : s.tablesSound) :
    1 ≤ scanStepCount s.tables.scan.active ∧ scanStepCount s.tables.scan.active ≤ 16 := by
  have pass : scanFails s.tables.scan.active 0 = false := (sound .scan).1 0 (by decide)
  unfold scanFails at pass
  simp only [if_true, Bool.or_eq_false_iff, decide_eq_false_iff_not] at pass
  omega

/-- R60: a legal LIGHT table has at most 15 thresholds. -/
theorem lightThresholds_legal {s : State} (sound : s.tablesSound) : lightThresholds s.tables.light.active ≤ 15 := by
  have pass : lightFails s.tables.light.active 0 = false := (sound .light).1 0 (by decide)
  unfold lightFails at pass
  simp only [if_true, decide_eq_false_iff_not] at pass
  omega

section Kept

variable {light : Vector Byte 34} {wide : Prop} {a b : State}

/-! ## Tables (R50) -/

theorem defaultTables_sound (s : State) (tables : s.tables = TableStore.reset) : s.tablesSound := by
  intro table
  rw [tables]
  exact ⟨defaultTables_pass true table, fun _ => defaultTables_pass false table⟩

theorem activateTables_sound (sound : a.tablesSound) : a.activateTables.tablesSound := by
  intro table
  obtain ⟨active, staging⟩ := sound table
  refine ⟨?_, fun pending => by cases (inSet_zero table).symm.trans pending⟩
  have bytes := bytes_activatePending a.tables table true
  by_cases pending : inSet a.tables.pendingSet table = true
  · rw [if_pos pending] at bytes
    exact passes_congr bytes (staging pending)
  · rw [if_neg pending] at bytes
    exact passes_congr bytes active

theorem moves_tablesSound (move : Moves light wide a b) (sound : a.tablesSound) : b.tablesSound := by
  cases move with
  | loads table first bytes settled =>
    intro other
    obtain ⟨active, staging⟩ := sound other
    refine ⟨passes_congr (bytes_load_active a.tables table other _ bytes) active, fun pending => ?_⟩
    have was : inSet a.tables.pendingSet other = true := by
      rw [← pendingSet_update a.tables table fun r => r.load _ bytes]; exact pending
    have differs : other ≠ table := by rintro rfl; exact Bool.noConfusion (settled.symm.trans was)
    exact passes_congr (bytes_update_ne a.tables table other _ false differs) (staging was)
  | pends set pass =>
    intro table
    obtain ⟨active, staging⟩ := sound table
    refine ⟨active, fun pending => ?_⟩
    have named : (inSet a.tables.pendingSet table || inSet set table) = true := by rw [← inSet_or]; exact pending
    rcases Bool.or_eq_true _ _ |>.mp named with before | now
    · exact staging before
    · exact pass table now
  | abandons set settled =>
    intro table
    obtain ⟨active, staging⟩ := sound table
    refine ⟨?_, fun pending => ?_⟩
    · refine passes_congr ?_ active
      have bytes := bytes_abandonSet a.tables table set true
      rwa [ite_self] at bytes
    · have unnamed : ¬inSet set table = true := fun named => by
        have clash := (settled table named).symm.trans pending
        cases clash
      have bytes := bytes_abandonSet a.tables table set false
      rw [if_neg unnamed] at bytes
      exact passes_congr bytes (staging pending)
  | activates => exact activateTables_sound sound
  | resets scope =>
    cases scope with
    | display => exact sound
    | events => exact sound
    | full => exact defaultTables_sound _ rfl
  | enters => exact defaultTables_sound _ rfl
  | stores pairs => rw [writeSettings_eq]; exact sound
  | joins address => rw [takeAddress_frame]; exact sound
  | loses => rw [loseLink_eq]; exact sound
  | _ => exact sound

theorem activeTables_stayValid : Claim.ActiveTablesStayValid := fun _ _ sound h =>
  step_keeps moves_tablesSound (fun _ kept => kept) h sound

/-- Settles O36, each part change by change. -/
theorem storedContentsStayLegal : Obligations.StoredContentsStayLegal :=
  ⟨leads_stayLower, activeTables_stayValid, settings_stayInRange⟩

/-! ## The sweep (R24 to R26) -/

/-- R24, R26: a sweep begins in its first phase with legal inputs. -/
theorem beginSweep_sound (settings : a.settingsSound) (tables : a.tablesSound) (first : a.drive.phase = 1) :
    a.beginSweep.sweepSound := by
  have phases := settings .phases
  simp only [settingInRange, Bool.and_eq_true, decide_eq_true_eq] at phases
  obtain ⟨lit, dark⟩ := firstWindow_legal a.sweepInputs.onTime
  have phase : a.beginSweep.drive.phase = 1 := first
  exact ⟨phase.ge, phase.trans_le phases.1, phases.2, dim_le_56 tables _, lit, dark⟩

theorem driveReset_sound : State.reset.sweepSound :=
  ⟨by decide, by decide, by decide, by decide, by decide, by decide⟩

theorem moves_sweepSound (move : Moves light wide a b) (settings : a.settingsSound) (tables : a.tablesSound)
    (sound : a.sweepSound) : b.sweepSound := by
  cases move with
  | drives d shape => exact shape sound
  | begins first => exact beginSweep_sound settings tables first
  | enters => exact driveReset_sound
  | resets scope => cases scope <;> exact sound
  | stores pairs => rw [writeSettings_eq]; exact sound
  | joins address => rw [takeAddress_frame]; exact sound
  | loses => rw [loseLink_eq]; exact sound
  | _ => exact sound

/-- Settles O60: the settings and the tables that a sweep takes its shape from are kept legal beside it. -/
theorem sweepsKeepTheirShape : Obligations.SweepsKeepTheirShape := by
  intro s t settings tables sweep h
  have kept : t.settingsSound ∧ t.tablesSound ∧ t.sweepSound :=
    step_keeps (P := fun u => u.settingsSound ∧ u.tablesSound ∧ u.sweepSound)
      (fun move ⟨settings, tables, sweep⟩ =>
        ⟨moves_settingsSound move settings, moves_tablesSound move tables, moves_sweepSound move settings tables sweep⟩)
      (fun _ kept => kept) h ⟨settings, tables, sweep⟩
  exact kept.2.2

/-! ## The Key Scanner (section 4.3, R72, R79) -/

theorem putKey_key (s : State) (k j : Fin 128) (r : KeyRecord) :
    (s.putKey k r).key j = if j = k then r else s.key j := by
  have cell : (overwriteVector s.scanner.keys k.val [r])[j.val] = if j.val = k.val then r else s.scanner.keys[j.val] :=
    overwriteVector_single _ _ _ _ j.isLt
  simp only [Fin.ext_iff]
  exact cell

theorem keysMillisecond_key (s : State) (k : Fin 128) : s.millisecond.key k = (s.key k).millisecond :=
  mapVector_getElem KeyRecord.millisecond s.scanner.keys k.val k.isLt

theorem millisecond_sound (r : KeyRecord) (sound : r.sound) : r.millisecond.sound := by
  unfold KeyRecord.sound at sound ⊢
  unfold KeyRecord.millisecond
  rw [Option.isSome_map]
  exact sound

theorem up_sound : KeyRecord.up.sound := rfl

theorem keysUp_sound (k : Fin 128) : (keysUp[k]).sound := by rw [keysUp_getElem]; exact up_sound

/-- Two vectors of keys with the same records. -/
theorem keys_ext (x y : Vector KeyRecord 128) (same : ∀ k : Fin 128, x[k] = y[k]) : x = y :=
  Vector.ext fun i hi => same ⟨i, hi⟩

theorem restart_key (sc : Scanner) (scan : Vector Byte 34) (k : Fin 128) :
    (sc.restart scan).keys[k] = rescheduled (scheduleColumns scan) k sc.keys[k] := by
  change (sc.restart scan).keys[k.val] = _
  rw [getElem_eq_of_toList]
  change ((List.finRange 128).map fun k => rescheduled (scheduleColumns scan) k sc.keys[k])[k.val]? = _
  simp

theorem rescheduled_sound (columns : Half) (k : Fin 128) (r : KeyRecord) (sound : r.sound) :
    (rescheduled columns k r).sound := by
  unfold rescheduled
  split
  · exact sound
  · exact up_sound

theorem rescheduled_up (columns : Half) (k : Fin 128) : rescheduled columns k KeyRecord.up = KeyRecord.up := by
  unfold rescheduled
  split <;> rfl

/-- What section 4.3 says of a scanner's records, apart from the rest of the node. -/
def Scanner.sound (sc : Scanner) : Prop :=
  (sc.mode ≠ .full → sc.keys = keysUp) ∧ (∀ k : Fin 128, sc.keys[k].sound) ∧ (sc.anyKey.isSome ↔ sc.mode = .wake)

theorem scannerReset_sound : Scanner.reset.sound := ⟨fun _ => rfl, keysUp_sound, by decide⟩

theorem restart_sound (sc : Scanner) (scan : Vector Byte 34) (sound : sc.sound) : (sc.restart scan).sound := by
  obtain ⟨up, keys, any⟩ := sound
  refine ⟨fun mode => keys_ext _ _ fun k => ?_, fun k => ?_, any⟩
  · rw [restart_key, up mode, keysUp_getElem, rescheduled_up]
  · rw [restart_key]
    exact rescheduled_sound _ _ _ (keys k)

theorem enter_sound (sc : Scanner) (mode : ScanMode) (sound : sc.sound) : (sc.enter mode).sound := by
  unfold Scanner.enter
  split
  · exact sound
  · next changes =>
    obtain ⟨up, keys, any⟩ := sound
    refine ⟨fun _ => ?_, fun k => ?_, ?_⟩
    · by_cases full : sc.mode = .full
      · exact if_pos full
      · exact (if_neg full).trans (up full)
    · by_cases full : sc.mode = .full
      · simp only [if_pos full]; exact keysUp_sound k
      · simp only [if_neg full]; exact keys k
    · by_cases wake : mode = .wake
      · simp [wake]
      · simp [wake]

theorem moves_scannerSound (move : Moves light wide a b) (sound : a.scannerSound) : b.scannerSound := by
  obtain ⟨up, keys, any⟩ := sound
  cases move with
  | keys k r full keeps =>
    refine ⟨fun other => absurd full other, fun j => ?_, any⟩
    rw [putKey_key]
    split
    · exact keeps (keys k)
    · exact keys j
  | rescans activated =>
    refine enter_sound _ _ ?_
    split
    · exact restart_sound _ _ ⟨up, keys, any⟩
    · exact ⟨up, keys, any⟩
  | anyKeys d runs => exact ⟨up, keys, ⟨fun _ => any.mp runs, fun _ => rfl⟩⟩
  | ticks =>
    refine ⟨fun mode => keys_ext _ _ fun k => ?_, fun k => ?_, any⟩
    · refine (keysMillisecond_key a k).trans ?_
      have record : a.key k = KeyRecord.up := by
        unfold State.key
        rw [up mode, keysUp_getElem]
      rw [record, keysUp_getElem]
      rfl
    · rw [keysMillisecond_key]
      exact millisecond_sound _ (keys k)
  | leaves => exact scannerReset_sound
  | resets scope =>
    cases scope with
    | display => exact ⟨up, keys, any⟩
    | events => exact ⟨up, keys, any⟩
    | full => exact scannerReset_sound
  | enters => exact scannerReset_sound
  | stores pairs => rw [writeSettings_eq]; exact ⟨up, keys, any⟩
  | joins address => rw [takeAddress_frame]; exact ⟨up, keys, any⟩
  | loses => rw [loseLink_eq]; exact ⟨up, keys, any⟩
  | _ => exact ⟨up, keys, any⟩

theorem keyRecords_followTheMode : Claim.KeyRecordsFollowTheMode := fun _ _ sound h =>
  step_keeps moves_scannerSound (fun _ kept => kept) h sound

/-- R72: outside a sweep start the schedule in force changes with the step position alone, in a full reset. -/
theorem moves_stepSound (move : Moves light False a b) (sound : a.stepSound) : b.stepSound := by
  obtain ⟨first, last⟩ := sound
  cases move with
  | advances =>
    unfold State.stepSound
    simp only [State.advanceStep, State.withScanner_scanner, State.withScanner_tables]
    split <;> omega
  | loads table first' bytes => cases table <;> exact ⟨first, last⟩
  | abandons set =>
    refine ⟨first, last.trans_eq ?_⟩
    change _ = scanStepCount (if inSet set .scan then a.tables.scan.abandon else a.tables.scan).active
    split <;> rfl
  | leaves => exact ⟨Nat.le_refl 1, first.trans last⟩
  | resets scope =>
    cases scope with
    | display => exact ⟨first, last⟩
    | events => exact ⟨first, last⟩
    | full => exact ⟨Nat.le_refl 1, (by decide : 1 ≤ scanStepCount defaultScan)⟩
  | activates whole => exact whole.elim
  | rescans activated whole => exact whole.elim
  | begins first whole => exact whole.elim
  | releases r bounds whole => exact whole.elim
  | pins low whole => exact whole.elim
  | enters low ok r bounds whole => exact whole.elim
  | stores pairs => rw [writeSettings_eq]; exact ⟨first, last⟩
  | joins address => rw [takeAddress_frame]; exact ⟨first, last⟩
  | loses => rw [loseLink_eq]; exact ⟨first, last⟩
  | _ => exact ⟨first, last⟩

/-- A turn of a sweep start at which SCAN does not activate keeps the step position in the schedule. -/
theorem takeTurn_stepSound (ending : State) (turn : Turn) (still : inSet a.tables.pendingSet .scan = false)
    (sound : a.stepSound) :
    inSet (ending.takeTurn a turn).tables.pendingSet .scan = false ∧ (ending.takeTurn a turn).stepSound := by
  cases turn with
  | light =>
    rw [show ending.takeTurn a .light = a.lightTurn ending from rfl, lightTurn_frame]
    exact ⟨still, sound⟩
  | cells => rw [cellsTurn_frame]; exact ⟨still, sound⟩
  | tables =>
    rw [tablesTurn_frame]
    refine ⟨inSet_zero .scan, sound.1, sound.2.trans_eq ?_⟩
    change _ = scanStepCount
      (if inSet a.tables.pendingSet .scan then a.tables.scan.activate else a.tables.scan).active
    rw [still]
    rfl
  | sample returns =>
    refine ⟨?_, reach_keeps moves_stepSound (takeSample_reach (light := a.tables.light.active) a _ returns) sound⟩
    have tables := takeTurn_tables a ending (.sample returns)
    rw [if_neg nofun] at tables
    rw [tables]
    exact still

theorem foldl_takeTurn_stepSound (ending : State) (turns : List Turn)
    (still : inSet a.tables.pendingSet .scan = false) (sound : a.stepSound) :
    (turns.foldl ending.takeTurn a).stepSound := by
  induction turns generalizing a with
  | nil => exact sound
  | cons turn rest ih =>
    obtain ⟨still', sound'⟩ := takeTurn_stepSound ending turn still sound
    exact ih still' sound'

theorem enter_step (sc : Scanner) (mode : ScanMode) : (sc.enter mode).step = sc.step ∨ (sc.enter mode).step = 1 := by
  unfold Scanner.enter
  split
  · exact .inl rfl
  · by_cases full : mode = .full
    · exact .inr (if_pos full)
    · exact .inl (if_neg full)

/-- R72, R73: a sweep start at which SCAN activates begins at step 1, and any other keeps the schedule. -/
theorem sweepStart_stepSound (order : SubmitOrder) (late : Option LateSample) (tables : a.tablesSound)
    (sound : a.stepSound) : (a.sweepStart order late).stepSound := by
  have legal : 1 ≤ scanStepCount (a.sweepStart order late).tables.scan.active :=
    (scanSteps_legal (reach_keeps moves_tablesSound (sweepStart_reach (wide := True) a trivial rfl order late) tables)).1
  have atFirst : (a.sweepStart order late).scanner.step = 1 → (a.sweepStart order late).stepSound :=
    fun step => ⟨step.ge, step.trans_le legal⟩
  have sc : (a.sweepStart order late).scanner =
      (if inSet a.tables.pendingSet .scan then
        ((sweepTurns order late).foldl a.takeTurn a.countSweep).scanner.restart
          ((sweepTurns order late).foldl a.takeTurn a.countSweep).tables.scan.active
        else ((sweepTurns order late).foldl a.takeTurn a.countSweep).scanner).enter
          ((sweepTurns order late).foldl a.takeTurn a.countSweep).modeDue := rfl
  by_cases activates : inSet a.tables.pendingSet .scan = true
  · rw [if_pos activates] at sc
    apply atFirst
    rw [sc]
    rcases enter_step _ _ with kept | one
    · exact kept
    · exact one
  · rw [if_neg activates] at sc
    have turned := foldl_takeTurn_stepSound a (sweepTurns order late) (a := a.countSweep)
      (Bool.eq_false_iff.mpr activates) sound
    rcases enter_step ((sweepTurns order late).foldl a.takeTurn a.countSweep).scanner
      ((sweepTurns order late).foldl a.takeTurn a.countSweep).modeDue with kept | one
    · have step := (congrArg Scanner.step sc).trans kept
      exact ⟨turned.1.trans_eq step.symm, step.trans_le turned.2⟩
    · exact atFirst ((congrArg Scanner.step sc).trans one)

theorem heldInReset_stepSound (s : State) (low ok : Bool) (r : Relay) : (s.heldInReset low ok r).stepSound :=
  ⟨Nat.le_refl 1, (by decide : 1 ≤ scanStepCount defaultScan)⟩

theorem steps_stayInTheSchedule : Claim.StepsStayInTheSchedule := by
  intro s t tables sound h
  unfold step at h
  split at h
  · cases h
    exact reach_keeps moves_stepSound (microsecond_reach s rfl) sound
  · next c rest _ =>
    by_cases narrow : isWide c = false
    · exact reach_keeps moves_stepSound (exec_reach_narrow c (s.withPending rest) t narrow h) sound
    · cases c with
      | hardReset =>
        cases h
        unfold State.hardReset
        split
        · exact sound
        · exact heldInReset_stepSound _ _ _ _
      | resetRelease =>
        cases h
        unfold State.resetRelease
        split
        · split
          · exact sweepStart_stepSound _ _ tables sound
          · exact sound
        · exact sound
      | supplyLoss =>
        cases h
        unfold State.supplyLoss
        split
        · exact heldInReset_stepSound _ _ _ _
        · exact sound
      | supplyInRange =>
        cases h
        unfold State.supplyInRange
        split
        · exact sound
        · split
          · exact heldInReset_stepSound _ _ _ _
          · exact sweepStart_stepSound _ _ tables sound
      | sweepStart order =>
        cases h
        split
        · exact sweepStart_stepSound _ _ tables sound
        · exact sound
      | _ => exact absurd rfl narrow

/-- Settles O55: the key records change by change, and the step position apart from the sweep starts, where the schedule
itself may change. -/
theorem scannerFollowsItsMode : Obligations.ScannerFollowsItsMode :=
  ⟨keyRecords_followTheMode, steps_stayInTheSchedule⟩

end Kept

end Sys2Proof.Machine
end

section
/-! What every step keeps of the Tone Unit and the Light Sense Unit, and the reset state. -/

namespace Sys2Proof.Machine

section Kept

variable {light : Vector Byte 34} {wide : Prop} {a b : State}

/-! ## The Tone Unit (R140, R145) -/

theorem plays_iff (s : State) (kind : ToneKind) : s.plays kind = true ↔ ∃ p ∈ s.tone, p.kind = kind := by
  unfold State.plays
  cases s.tone with
  | none => simp
  | some play => simp

/-- What R140 and R145 ask of a channel in a node state. -/
def toneFits (state : NodeState) (tone : Option Play) : Prop :=
  (∀ p ∈ tone, p.kind = .alert → state = .standalone) ∧ (state = .quiescent ∨ state = .unaddressed → tone = none)

theorem toneFits_iff (s : State) : toneFits s.node.state s.tone ↔ s.alertSound ∧ s.toneSilent := by
  unfold toneFits State.alertSound State.toneSilent
  rw [plays_iff]
  refine and_congr_left fun _ => ⟨?_, fun h p hp kind => h ⟨p, hp, kind⟩⟩
  rintro h ⟨p, hp, kind⟩
  exact h p hp kind

theorem toneFits_none (state : NodeState) : toneFits state none := ⟨fun _ h => (by cases h), fun _ => rfl⟩

/-- A play that is no ALERT fits every state but QUIESCENT and UNADDRESSED. -/
theorem toneFits_play {state : NodeState} {play : Play} (kind : play.kind ≠ .alert)
    (awake : state = .online ∨ state = .standalone) : toneFits state (some play) := by
  refine ⟨fun p hp alert => by cases hp; exact absurd alert kind, fun asleep => ?_⟩
  rcases awake with rfl | rfl <;> simp at asleep

/-- A channel whose play, if any, is of the kind of the one before. -/
theorem toneFits_same {state : NodeState} {tone tone' : Option Play} (fits : toneFits state tone)
    (kinds : ∀ q ∈ tone', ∃ p ∈ tone, q.kind = p.kind) : toneFits state tone' := by
  obtain ⟨alerts, silent⟩ := fits
  refine ⟨fun q hq alert => ?_, fun asleep => ?_⟩
  · obtain ⟨p, hp, same⟩ := kinds q hq
    exact alerts p hp (same.symm.trans alert)
  · cases found : tone' with
    | none => rfl
    | some q =>
      obtain ⟨p, hp, _⟩ := kinds q found
      rw [silent asleep] at hp
      cases hp

theorem toneFits_awake {state : NodeState} {tone : Option Play} (fits : toneFits state tone)
    (noAlert : ∀ p ∈ tone, p.kind ≠ .alert) (state' : NodeState) (awake : state' = .online ∨ state' = .standalone) :
    toneFits state' tone := by
  cases tone with
  | none => exact toneFits_none state'
  | some p => exact toneFits_play (noAlert p rfl) awake

theorem moves_toneFits (move : Moves light wide a b) (node : a.nodeSound) (fits : toneFits a.node.state a.tone) :
    toneFits b.node.state b.tone := by
  have noAlert : a.node.state ≠ .standalone → ∀ p ∈ a.tone, p.kind ≠ .alert :=
    fun elsewhere p hp alert => elsewhere (fits.1 p hp alert)
  cases move with
  | plays tone kinds => exact toneFits_same fits kinds
  | ticks =>
    refine toneFits_same fits fun q hq => ?_
    obtain ⟨p, hp, rfl⟩ := Option.map_eq_some_iff.mp hq
    exact ⟨p, hp, rfl⟩
  | requests pattern busy awake =>
    rcases busy_addressed node.2 busy with online | quiescent
    · exact toneFits_play (fun h => by cases h) (.inl online)
    · exact absurd quiescent awake
  | clicks pattern awake => exact toneFits_play (fun h => by cases h) awake
  | parks => exact toneFits_none _
  | leaves => exact toneFits_none _
  | enters => exact toneFits_none _
  | wakes quiescent =>
    exact toneFits_awake fits (noAlert (by rw [quiescent]; decide)) _ (.inl rfl)
  | joins address =>
    by_cases unaddressed : a.node.state = .unaddressed
    · rw [takeAddress_unaddressed a address unaddressed]
      exact toneFits_awake fits (noAlert (by rw [unaddressed]; decide)) _ (.inl rfl)
    · rw [takeAddress_addressed a address unaddressed]
      exact fits
  | resumes standalone =>
    by_cases alert : a.plays .alert = true
    · rw [if_pos alert]
      exact toneFits_none _
    · rw [if_neg alert]
      exact toneFits_awake fits (fun p hp kind => alert ((plays_iff a .alert).mpr ⟨p, hp, kind⟩)) _ (.inl rfl)
  | loses =>
    rw [loseLink_eq]
    refine ⟨fun _ _ _ => rfl, fun asleep => ?_⟩
    rcases asleep with asleep | asleep <;> cases asleep
  | resets scope =>
    cases scope with
    | display => exact fits
    | events => exact fits
    | full => exact toneFits_none _
  | stores pairs =>
    rw [writeSettings_eq]
    simp only [State.withNode_node, State.withNode_tone]
    split <;> exact fits
  | _ => exact fits

theorem alerts_playInStandaloneAlone : Claim.AlertsPlayInStandaloneAlone := by
  intro s t node alert silent h
  have kept : t.nodeSound ∧ toneFits t.node.state t.tone :=
    step_keeps (P := fun u => u.nodeSound ∧ toneFits u.node.state u.tone)
      (fun move ⟨node, fits⟩ => ⟨moves_nodeSound move node, moves_toneFits move node fits⟩) (fun _ kept => kept) h
      ⟨node, (toneFits_iff s).mpr ⟨alert, silent⟩⟩
  exact (toneFits_iff t).mp kept.2

/-! ## The Light Sense Unit (R117, R118) -/

theorem lightStop_bounded {u : LightUnit} (bounded : u.bounded) : u.stop.bounded :=
  ⟨Nat.zero_le _, bounded.2.1, bounded.2.2⟩

theorem lightStart_bounded {u : LightUnit} (mode : Byte) (bounded : u.bounded) : (u.start mode).bounded := by
  unfold LightUnit.start
  split
  · exact ⟨Nat.zero_le _, bounded.2.1, bounded.2.2⟩
  · split
    · exact ⟨Nat.zero_le _, bounded.2.1, bounded.2.2⟩
    · exact lightStop_bounded bounded

/-- A mode in its range that is not off starts a measurement. -/
theorem lightStart_runs (u : LightUnit) (mode : Byte) (inRange : mode.toNat ≤ 2) (on : mode ≠ 0) :
    (u.start mode).state ≠ .stopped := by
  unfold LightUnit.start
  split
  · exact fun h => by cases h
  · next notPeriod =>
    split
    · exact fun h => by cases h
    · next notWindow => bv_omega

/-- R118, R123: a measurement begun, or stopped, as the node state and LIGHT_MODE have it. -/
theorem beginMeasurement_sound (s : State) (settings : s.settingsSound) (bounded : s.light.bounded) :
    s.beginMeasurement.lightSound ∧ s.beginMeasurement.light.bounded := by
  have inRange : (s.setting .lightMode).toNat ≤ 2 := by simpa [settingInRange] using settings .lightMode
  have runs : s.beginMeasurement.lightRuns = s.lightRuns := rfl
  unfold State.lightSound
  rw [runs]
  unfold State.beginMeasurement
  by_cases on : s.lightRuns = true
  · have mode : s.setting .lightMode ≠ 0 := by
      unfold State.lightRuns at on
      simp only [Bool.and_eq_true, bne_iff_ne] at on
      exact on.2
    rw [if_pos on]
    exact ⟨⟨fun stopped => absurd stopped (lightStart_runs _ _ inRange mode), fun off => by simp [on] at off⟩,
      lightStart_bounded _ bounded⟩
  · rw [if_neg on]
    exact ⟨⟨fun _ => Bool.eq_false_iff.mpr on, fun _ => rfl⟩, lightStop_bounded bounded⟩

/-- A unit stopped in a node state in which it does not run. -/
theorem lightSound_of_stop (s : State) (asleep : s.node.state = .unaddressed ∨ s.node.state = .quiescent)
    (stopped : s.light.state = .stopped) : s.lightSound := by
  refine ⟨fun _ => ?_, fun _ => stopped⟩
  unfold State.lightRuns
  rcases asleep with state | state <;> simp [state]

/-- The unit's states agree where whether it runs does. -/
theorem lightSound_congr (light : b.light = a.light) (runs : b.lightRuns = a.lightRuns) (sound : a.lightSound) :
    b.lightSound := by
  unfold State.lightSound
  rw [light, runs]
  exact sound

theorem lightRuns_congr (state : b.node.state = a.node.state) (mode : b.setting .lightMode = a.setting .lightMode) :
    b.lightRuns = a.lightRuns := by
  unfold State.lightRuns
  rw [state, mode]

theorem writeSettings_lightSound (pairs : List (Byte × Byte)) (inRange : ∀ pair ∈ pairs, pairInRange pair = true)
    (settings : a.settingsSound) (sound : a.lightSound) (bounded : a.light.bounded) :
    (a.writeSettings pairs).lightSound ∧ (a.writeSettings pairs).light.bounded := by
  have state : (a.writeSettings pairs).node.state = a.node.state := by
    rw [writeSettings_eq]; simp only [State.withNode_node]; split <;> rfl
  have stored : (a.writeSettings pairs).setting .lightMode =
      (a.withSettings (storePairs pairs a.settings)).setting .lightMode := by
    rw [writeSettings_eq]; rfl
  by_cases writes : writesAny pairs [.lightMode, .lightWindow] = true
  · have begun := beginMeasurement_sound (a.withSettings (storePairs pairs a.settings))
      (fun n => storePairs_inRange pairs _ inRange n (settings n)) bounded
    have same : (a.writeSettings pairs).light = (a.withSettings (storePairs pairs a.settings)).beginMeasurement.light := by
      rw [writeSettings_eq]; exact if_pos writes
    refine ⟨lightSound_congr same ?_ begun.1, same ▸ begun.2⟩
    exact lightRuns_congr state stored
  · have same : (a.writeSettings pairs).light = a.light := by rw [writeSettings_eq]; exact if_neg writes
    have mode : (a.writeSettings pairs).setting .lightMode = a.setting .lightMode := stored.trans
      (storePairs_unwritten pairs [.lightMode, .lightWindow] _ .lightMode (by decide) (Bool.eq_false_iff.mpr writes))
    exact ⟨lightSound_congr same (lightRuns_congr state mode) sound, same ▸ bounded⟩

theorem moves_lightSound (legal : lightThresholds light ≤ 15) (move : Moves light wide a b) (settings : a.settingsSound)
    (sound : a.lightSound) (bounded : a.light.bounded) : b.lightSound ∧ b.light.bounded := by
  cases move with
  | stores pairs inRange => exact writeSettings_lightSound pairs inRange settings sound bounded
  | measures u running bounds => exact ⟨running.trans sound, bounds legal bounded⟩
  | parks => exact ⟨lightSound_of_stop _ (.inr rfl) rfl, lightStop_bounded bounded⟩
  | leaves => exact ⟨lightSound_of_stop _ (.inl rfl) rfl, lightStop_bounded bounded⟩
  | wakes => exact beginMeasurement_sound ((a.setNodeState .online).restartTimer) settings bounded
  | joins address =>
    by_cases unaddressed : a.node.state = .unaddressed
    · rw [takeAddress_unaddressed a address unaddressed]
      exact beginMeasurement_sound (a.withNode _) settings bounded
    · rw [takeAddress_addressed a address unaddressed]
      exact ⟨sound, bounded⟩
  | resumes standalone =>
    refine ⟨lightSound_congr (a := a) rfl ?_ sound, bounded⟩
    unfold State.lightRuns
    rw [standalone]
    rfl
  | loses online =>
    rw [loseLink_eq]
    refine ⟨lightSound_congr (a := a) rfl ?_ sound, bounded⟩
    unfold State.lightRuns
    rw [online]
    rfl
  | resets scope =>
    cases scope with
    | display =>
      exact ⟨lightSound_congr rfl (lightRuns_congr rfl (byteAt_resetGroup _ _ .lightMode)) sound, bounded⟩
    | events =>
      exact ⟨lightSound_congr rfl (lightRuns_congr rfl (byteAt_resetGroup _ _ .lightMode)) sound, bounded⟩
    | full => exact ⟨⟨fun _ => rfl, fun _ => rfl⟩, Nat.zero_le _, Nat.zero_le _, Nat.zero_le _⟩
  | enters => exact ⟨⟨fun _ => rfl, fun _ => rfl⟩, Nat.zero_le _, Nat.zero_le _, Nat.zero_le _⟩
  | _ => exact ⟨sound, bounded⟩

theorem light_runsWithTheNodeState : Claim.LightRunsWithTheNodeState := by
  intro s t _ settings tables sound bounded h
  have kept : t.settingsSound ∧ t.lightSound ∧ t.light.bounded :=
    step_keeps (P := fun u => u.settingsSound ∧ u.lightSound ∧ u.light.bounded)
      (fun move ⟨settings, sound, bounded⟩ => ⟨moves_settingsSound move settings,
        moves_lightSound (lightThresholds_legal tables) move settings sound bounded⟩) (fun _ kept => kept) h
      ⟨settings, sound, bounded⟩
  exact kept.2

/-- Settles O43: the channel beside the node, and the light unit beside the settings, change by change. -/
theorem toneAndLightFollowTheNode : Obligations.ToneAndLightFollowTheNode :=
  ⟨alerts_playInStandaloneAlone, light_runsWithTheNodeState⟩

end Kept

/-! ## The reset state -/

/-- Settles O4: each invariant's part of the reset state. -/
theorem resetStateIsSound : Obligations.ResetStateIsSound :=
  ⟨fun _ => ⟨rfl, ⟨.waiting, rfl⟩, rfl, rfl, rfl, rfl⟩, ⟨nodeReset_addressHeld, .inl rfl⟩,
    timerSound_of_zero _ rfl, queueReset_ordered, fun _ => rfl,
    ⟨planeReset_sound, planeReset_sound, planeReset_sound⟩, defaultTables_sound _ rfl, defaults_inRange,
    driveReset_sound, scannerReset_sound, heldInReset_stepSound State.reset true true Relay.reset,
    ((toneFits_iff State.reset).mp (toneFits_none _)).1, fun _ => rfl, ⟨fun _ => rfl, fun _ => rfl⟩,
    ⟨Nat.zero_le _, Nat.zero_le _, Nat.zero_le _⟩, ⟨slotFree_bounded, slotFree_bounded, Nat.zero_le _⟩⟩

end Sys2Proof.Machine
end

section
/-! The hard reset: while it lasts nothing runs but the repetition in BYPASS, and what begins and ends it (R45, R147, R179,
R181). -/

namespace Sys2Proof.Machine

/-! ## The relay in a hard reset -/

/-- R170, R178: what the relay is while a hard reset lasts: in BYPASS, both slots FREE, between frames, no error counted. -/
def Relay.rests (r : Relay) : Prop :=
  (∃ rep, r.mode = .bypass rep) ∧ r.slot1 = Slot.free ∧ r.slot2 = Slot.free ∧ r.rx = .between ∧ r.errors = 0

theorem relayReset_rests (transmit : Transmit) (tx : Option Symbol) :
    Relay.rests { Relay.reset with transmit := transmit, tx := tx } := ⟨⟨.waiting, rfl⟩, rfl, rfl, rfl, rfl⟩

theorem assertReset_rests (r : Relay) : r.assertReset.rests := by
  unfold Relay.assertReset
  split
  · exact relayReset_rests _ _
  · exact relayReset_rests _ _

theorem held_resetHeld (u : State) (low ok : Bool) (r : Relay) (rests : r.rests) : (u.heldInReset low ok r).resetHeld :=
  fun _ => ⟨rfl, rests⟩

/-- Repetition in BYPASS changes how far it has come and what the pair carries. -/
theorem bypassSymbol_rests (s : State) (sym : Symbol) (rests : s.relay.rests) : (s.bypassSymbol sym).relay.rests := by
  obtain ⟨⟨rep, mode⟩, slots⟩ := rests
  have repeats : ∀ rep', (s.repeatSymbol rep' sym).relay.rests := fun rep' => by
    cases sym <;> exact ⟨⟨_, rfl⟩, slots⟩
  unfold State.bypassSymbol
  rw [mode]
  split
  · cases rep with
    | waiting =>
      simp only []
      unfold State.awaitRepetition
      split
      · exact repeats _
      · exact ⟨⟨.waiting, mode⟩, slots⟩
    | between => exact repeats _
    | inFrame bytes => exact repeats _
  · exact ⟨⟨rep, mode⟩, slots⟩

/-! ## What a hard reset holds still -/

section Held

variable (u : State) (low ok : Bool) (r : Relay)

/-- R45, R71, R147, R164: while the hard reset lasts no command but those of the relay's repetition and of the pins changes
anything: no frame is received or in process, no mode scans, no measurement or play is in flight. -/
theorem exec_held (c : Instr) (narrow : isWide c = false) (repeats : ∀ sym, c ≠ .bypassRepeat sym)
    (reset : (u.heldInReset low ok r).inReset = true) (bypass : ∃ rep, r.mode = .bypass rep) :
    exec c (u.heldInReset low ok r) = .next (u.heldInReset low ok r) := by
  obtain ⟨rep, mode⟩ := bypass
  have relays : (u.heldInReset low ok r).relays = false := by
    change (r.mode == .relay) = false
    rw [mode]
    rfl
  have unrelayed : ∀ t : State, (if (u.heldInReset low ok r).relays then t else u.heldInReset low ok r) =
      u.heldInReset low ok r := fun t => by rw [relays]; rfl
  have stopped : ∀ t : State, (if (u.heldInReset low ok r).inReset then u.heldInReset low ok r else t) =
      u.heldInReset low ok r := fun t => if_pos reset
  cases c with
  | hardReset => cases narrow
  | resetRelease => cases narrow
  | supplyLoss => cases narrow
  | supplyInRange => cases narrow
  | sweepStart => cases narrow
  | bypassRepeat sym => exact absurd rfl (repeats sym)
  | bypassTailEnd e =>
    refine congrArg Host.Outcome.next ?_
    unfold State.bypassTailEnd
    rw [show (u.heldInReset low ok r).relay.mode = .bypass rep from mode]
  | frameEnd e => exact congrArg Host.Outcome.next (unrelayed _)
  | transmitStart idles => exact congrArg Host.Outcome.next (unrelayed _)
  | transmitEnd => exact congrArg Host.Outcome.next (unrelayed _)
  | frameOpen => exact congrArg Host.Outcome.next (unrelayed _)
  | byteReceived sym => exact congrArg Host.Outcome.next (unrelayed _)
  | phaseStart => exact congrArg Host.Outcome.next (stopped _)
  | litWindowEnd => exact congrArg Host.Outcome.next (stopped _)
  | senseWindowStart => exact congrArg Host.Outcome.next (stopped _)
  | millisecondTick => exact congrArg Host.Outcome.next (stopped _)
  | keySample returns =>
    have asleep : (u.heldInReset low ok r).senses = false := by
      unfold State.senses
      rw [reset]
      rfl
    refine congrArg Host.Outcome.next ?_
    rw [asleep]
    rfl
  | blinkHalfChange gen => cases gen <;> rfl
  | _ => rfl

end Held

/-! ## The beginning and the end of a hard reset -/

theorem sweepStart_pins (s : State) (order : SubmitOrder) (late : Option LateSample) :
    (s.sweepStart order late).inReset = s.inReset := by
  obtain ⟨low, ok, _⟩ := sweepChanges_fields s order late
  have low : (s.sweepStart order late).rstLow = s.rstLow := low
  have ok : (s.sweepStart order late).supplyOk = s.supplyOk := ok
  unfold State.inReset
  rw [low, ok]

theorem leaveReset_inReset (s : State) : s.leaveReset.inReset = false := sweepStart_pins _ _ _

/-- Outside a sweep start, a hard reset and its end the pins stay. -/
theorem moves_inReset {light : Vector Byte 34} {a b : State} (move : Moves light False a b) :
    b.inReset = a.inReset := by
  cases move with
  | stores pairs => rw [writeSettings_eq]; rfl
  | joins address => rw [takeAddress_frame]; rfl
  | loses => rw [loseLink_eq]; rfl
  | resets scope => cases scope <;> rfl
  | activates whole => exact whole.elim
  | rescans activated whole => exact whole.elim
  | begins first whole => exact whole.elim
  | releases r bounds whole => exact whole.elim
  | pins low whole => exact whole.elim
  | enters low ok r bounds whole => exact whole.elim
  | _ => rfl

theorem resetHeld_of_running {s : State} (running : s.inReset = false) : s.resetHeld :=
  fun reset => by rw [running] at reset; cases reset

theorem inReset_false_iff (s : State) : s.inReset = false ↔ s.rstLow = false ∧ s.supplyOk = true := by
  unfold State.inReset
  simp

/-- A command keeps what a hard reset holds, where none lasts. -/
theorem exec_resetHeld_running (c : Instr) (s t : State) (running : s.inReset = false) (h : exec c s = .next t) :
    t.resetHeld := by
  obtain ⟨high, inRange⟩ := (inReset_false_iff s).mp running
  have stays : s.resetHeld := resetHeld_of_running running
  by_cases narrow : isWide c = false
  · have pins : t.inReset = s.inReset := reach_keeps (P := fun u => u.inReset = s.inReset)
      (fun move same => (moves_inReset move).trans same) (exec_reach_narrow c s t narrow h) rfl
    exact resetHeld_of_running (pins.trans running)
  · cases c with
    | hardReset =>
      cases h
      unfold State.hardReset
      rw [running]
      exact held_resetHeld _ _ _ _ (assertReset_rests _)
    | resetRelease =>
      cases h
      unfold State.resetRelease
      rw [high]
      exact stays
    | supplyLoss =>
      cases h
      unfold State.supplyLoss
      rw [inRange]
      exact held_resetHeld _ _ _ _ (relayReset_rests _ _)
    | supplyInRange =>
      cases h
      unfold State.supplyInRange
      rw [inRange]
      exact stays
    | sweepStart order =>
      cases h
      split
      · exact resetHeld_of_running ((sweepStart_pins _ _ _).trans running)
      · exact stays
    | _ => exact absurd rfl narrow

/-- A command keeps what a hard reset holds, where one lasts. -/
theorem exec_resetHeld_held (c : Instr) (u : State) (low ok : Bool) (r : Relay) (t : State)
    (reset : (u.heldInReset low ok r).inReset = true) (rests : r.rests)
    (h : exec c (u.heldInReset low ok r) = .next t) : t.resetHeld := by
  have stays : (u.heldInReset low ok r).resetHeld := held_resetHeld u low ok r rests
  by_cases narrow : isWide c = false
  · by_cases repeats : ∀ sym, c ≠ .bypassRepeat sym
    · cases (exec_held u low ok r c narrow repeats reset rests.1).symm.trans h
      exact stays
    · obtain ⟨sym, same⟩ := not_forall.mp repeats
      rw [not_not] at same
      subst same
      cases h
      rw [bypassSymbol_frame]
      exact held_resetHeld u low ok _ (bypassSymbol_rests (u.heldInReset low ok r) sym rests)
  · cases c with
    | hardReset =>
      cases h
      unfold State.hardReset
      rw [reset]
      exact held_resetHeld u true ok r rests
    | resetRelease =>
      cases h
      unfold State.resetRelease
      split
      · split
        · exact resetHeld_of_running (leaveReset_inReset _)
        · exact held_resetHeld u false ok r rests
      · exact stays
    | supplyLoss =>
      cases h
      unfold State.supplyLoss
      split
      · exact held_resetHeld u low false _ (relayReset_rests _ _)
      · exact stays
    | supplyInRange =>
      cases h
      unfold State.supplyInRange
      split
      · exact stays
      · split
        · exact held_resetHeld u true true _ (relayReset_rests _ _)
        · exact resetHeld_of_running (leaveReset_inReset _)
    | sweepStart order =>
      have notOver : ¬(u.heldInReset low ok r).sweepEnds order.late := fun ends =>
        Bool.noConfusion (reset.symm.trans ends.1)
      cases (execSweepStart_of_goes_on (order := order.blocks) notOver).symm.trans h
      exact stays
    | _ => exact absurd rfl narrow

/-- Settles O5: in a hard reset a command changes the pins or the relay's repetition alone, or ends it; outside one only
HARD_RESET and SUPPLY_LOSS begin one. -/
theorem hardResetIsHeldByEveryStep : Obligations.HardResetIsHeldByEveryStep := by
  intro s t held h
  have waiting : ∀ rest, (s.withPending rest).resetHeld := fun rest reset => by
    obtain ⟨same, rests⟩ := held reset
    exact ⟨congrArg (State.withPending · rest) same, rests⟩
  unfold step at h
  split at h
  · cases h
    by_cases reset : s.inReset = true
    · obtain ⟨same, rests⟩ := held reset
      rw [same]
      exact held_resetHeld s s.rstLow s.supplyOk s.relay rests
    · have running : s.inReset = false := Bool.eq_false_iff.mpr reset
      have pins : s.microsecond.inReset = s.inReset := reach_keeps (P := fun u => u.inReset = s.inReset)
        (fun move same => (moves_inReset move).trans same) (microsecond_reach s rfl) rfl
      exact resetHeld_of_running (pins.trans running)
  · next c rest _ =>
    by_cases reset : (s.withPending rest).inReset = true
    · obtain ⟨same, rests⟩ := waiting rest reset
      rw [same] at h reset
      exact exec_resetHeld_held c _ _ _ _ t reset rests h
    · exact exec_resetHeld_running c (s.withPending rest) t (Bool.eq_false_iff.mpr reset) h

end Sys2Proof.Machine
end

section
/-! The pins of the part and the passing of time: the release and the supply (R45, R147, R179, R181), the resting outputs,
the microsecond, the millisecond and the loss of the link (R158 to R164). -/

namespace Sys2Proof.Machine

/-! ## Steps -/

/-- Settles O1: `step` on a queue with a front command is its second branch. -/
theorem stepTakesTheFrontCommand : Obligations.StepTakesTheFrontCommand := fun _ _ _ => rfl

theorem lightMicrosecond_idle (s : State) (none_ : s.light.inPeriod = false) : s.lightMicrosecond = s := by
  unfold State.lightMicrosecond
  rw [none_]
  rfl

theorem lightMicrosecond_counts (s : State) (period : s.light.inPeriod = true) (below : s.light.count < 65534) :
    s.lightMicrosecond = s.withLight { s.light with count := s.light.count + 1 } := by
  unfold State.lightMicrosecond
  rw [if_pos period, if_neg (by omega)]

theorem lightMicrosecond_overflows (s : State) (period : s.light.inPeriod = true) (reached : 65534 ≤ s.light.count) :
    s.lightMicrosecond = s.periodOverflow := by
  unfold State.lightMicrosecond State.periodOverflow
  rw [if_pos period, if_pos period, if_pos (by omega)]

/-- Settles O2, by what a microsecond does to a measurement in each case, and to a play. -/
theorem emptyQueueStepPassesAMicrosecond : Obligations.EmptyQueueStepPassesAMicrosecond := by
  intro s empty
  have runs : step s = .next s.microsecond := by unfold step; rw [empty]
  refine ⟨s.microsecond, runs, fun none_ => ?_, fun period below => ?_, fun period reached => ?_, ?_⟩
  · unfold State.microsecond
    rw [lightMicrosecond_idle s none_]
    rfl
  · unfold State.microsecond
    rw [lightMicrosecond_counts s period below]
    rfl
  · refine ⟨s.periodOverflow, rfl, ?_⟩
    unfold State.microsecond
    rw [lightMicrosecond_overflows s period reached]
    rfl
  · unfold State.microsecond
    rw [lightMicrosecond_frame]
    rfl

/-! ## The lines -/

theorem foldr_lineBit (w : Nat) (f : Nat → Bool) (l : List Nat) (i : Nat) (inWord : i < w) :
    (l.foldr (fun n acc => if f (n + 1) then (1#w <<< n) ||| acc else acc) 0#w).getLsbD i =
      (decide (i ∈ l) && f (i + 1)) := by
  induction l with
  | nil => simp
  | cons n rest ih =>
    rw [List.foldr_cons]
    by_cases here : i = n
    · subst here
      cases lit : f (i + 1) with
      | true => simp [inWord]
      | false => simp [ih, lit]
    · cases lit : f (n + 1) with
      | true =>
        have other : (1#w <<< n).getLsbD i = false := by
          rw [BitVec.getLsbD_shiftLeft, BitVec.getLsbD_one]
          simp only [Bool.and_eq_false_iff]
          by_cases below : i < n
          · simp [below]
          · right; simp; omega
        simp [ih, here, other]
      | false => simp [ih, here]

/-- Line `i + 1` is bit `i` of a word of lines. -/
theorem lineWord_getLsbD (w : Nat) (f : Nat → Bool) (i : Nat) (inWord : i < w) :
    (lineWord w f).getLsbD i = f (i + 1) := by
  unfold lineWord
  rw [show (0 : BitVec w) = 0#w from rfl, foldr_lineBit w f _ i inWord]
  simp [inWord]

theorem lineWord_eq_zero (w : Nat) (f : Nat → Bool) (dark : ∀ n, f n = false) : lineWord w f = 0 := by
  apply BitVec.eq_of_getLsbD_eq
  intro i inWord
  rw [lineWord_getLsbD w f i inWord, dark, show (0 : BitVec w) = 0#w from rfl, BitVec.getLsbD_zero]

theorem outputs_inactiveInReset : Claim.OutputsAreInactiveInReset := by
  intro s reset
  refine ⟨lineWord_eq_zero 48 _ fun n => ?_, lineWord_eq_zero 8 _ fun n => ?_, ?_, ?_⟩
  · simp [State.segmentActive, reset]
  · simp [State.commonActive, reset]
  · unfold State.toneP
    cases s.tone <;> simp [reset]
  · unfold State.toneN
    cases s.tone <;> simp [reset]

theorem nothing_countsInReset : Claim.NothingCountsInReset := by
  intro s order late returns reset
  have notOver : ¬s.sweepEnds late := fun ends => Bool.noConfusion (reset.symm.trans ends.1)
  have asleep : s.senses = false := by unfold State.senses; rw [reset]; rfl
  refine ⟨execSweepStart_of_goes_on notOver, congrArg Host.Outcome.next (if_pos reset), ?_,
    congrArg Host.Outcome.next (if_pos reset)⟩
  refine congrArg Host.Outcome.next ?_
  rw [asleep]
  rfl

/-- Settles O58: each output and each of the four commands asks for a node out of reset. -/
theorem outputsAndCountersRestInReset : Obligations.OutputsAndCountersRestInReset :=
  ⟨outputs_inactiveInReset, nothing_countsInReset⟩

/-! ## The release (R45, R181) -/

theorem activatePending_reset : TableStore.reset.activatePending = TableStore.reset := rfl

/-- The state at the release, the relay apart. -/
theorem leaveReset_held (u : State) (low ok : Bool) (r : Relay) :
    let t := (u.heldInReset low ok r).leaveReset
    t.inReset = false ∧ t.node = NodeControl.reset ∧ t.drive.sweepCounter = 1 ∧ t.drive.phase = 1 ∧
      t.drive.blinkA = ⟨true, 1, false⟩ ∧ t.drive.blinkB = ⟨true, 1, false⟩ ∧ t.drive.sweep.mode = .off ∧
      t.drive.sweep.shown = Plane.reset ∧ t.settings = defaultSettings ∧ t.tables = TableStore.reset ∧
      t.cells = CellStore.reset ∧ t.scanner = Scanner.reset ∧ t.queue = EventQueue.reset ∧ t.light = LightUnit.reset ∧
      t.tone = none ∧ t.engine = .idle ∧ t.relay = r.release := by
  let v := (((u.heldInReset low ok r).withRstLow false).withSupplyOk true).withRelay r.release
  have tables : (v.sweepStart .lightCellsTables none).tables = TableStore.reset := by
    obtain ⟨_, _, _, _, _, _, _, _, tables⟩ := sweepChanges_fields v .lightCellsTables none
    exact tables.trans activatePending_reset
  have scanner : (v.sweepStart .lightCellsTables none).scanner = Scanner.reset := by
    obtain ⟨_, _, _, taken⟩ := sweepChanges_taken v .lightCellsTables
    have noScan : ¬inSet v.tables.pendingSet .scan = true := Bool.eq_false_iff.mp (inSet_zero .scan)
    rw [if_neg noScan] at taken
    exact taken.trans (if_pos rfl)
  exact ⟨rfl, rfl, rfl, rfl, rfl, rfl, rfl, rfl, rfl, tables, rfl, scanner, rfl, rfl, rfl, rfl, rfl⟩

theorem release_of_bypass (r : Relay) (rep : Repetition) :
    r.mode = .bypass rep →
      r.release = { r with mode := r.release.mode } ∧
        r.release.mode =
          match rep with
          | .waiting => .relay
          | .between => .relay
          | .inFrame bytes => .bypassTail bytes := by
  intro bypass
  obtain ⟨mode, slot1, slot2, ready, rx, transmit, errors, tx⟩ := r
  obtain rfl : mode = .bypass rep := bypass
  cases rep <;> exact ⟨rfl, rfl⟩

/-- Settles O6: the first sweep start run on the reset contents, and the relay's release by its repetition. -/
theorem releaseIsTheFirstSweepStart : Obligations.ReleaseIsTheFirstSweepStart := by
  intro s rep held bypass
  have released : exec .resetRelease s = .next s.leaveReset := by rw [held]; rfl
  have blocks := leaveReset_held s true true s.relay
  rw [← held] at blocks
  obtain ⟨h1, h2, h3, h4, h5, h6, h7, h8, h9, h10, h11, h12, h13, h14, h15, h16, relay⟩ := blocks
  obtain ⟨others, mode⟩ := release_of_bypass s.relay rep bypass
  refine ⟨s.leaveReset, released, h1, h2, h3, h4, h5, h6, h7, h8, h9, h10, h11, h12, h13, h14, h15, h16, ?_, ?_⟩
  · rw [relay]; exact others
  · rw [relay]; exact mode

/-! ## HARD_RESET and the supply (R147, R179) -/

theorem hardReset_running (s : State) (running : s.inReset = false) :
    exec .hardReset s = .next (s.heldInReset true true s.relay.assertReset) := by
  refine congrArg Host.Outcome.next ?_
  unfold State.hardReset
  rw [running]
  rfl

theorem assertReset_idle (r : Relay) (sent : Nat) (idle : r.transmit = .idle sent) :
    r.assertReset = { Relay.reset with transmit := .idle r.idlesSent } := by
  unfold Relay.assertReset
  rw [idle]

theorem idlesSent_idle (r : Relay) (sent : Nat) (idle : r.transmit = .idle sent)
    (noTail : ∀ n, r.mode ≠ .bypassTail n) : r.idlesSent = sent := by
  unfold Relay.idlesSent
  rw [idle]
  cases mode : r.mode with
  | relay => rfl
  | bypass rep => rfl
  | bypassTail n => exact absurd mode (noTail n)

theorem idlesSent_tail (r : Relay) (n : Nat) (tail : r.mode = .bypassTail n) : r.idlesSent = 0 := by
  unfold Relay.idlesSent
  rw [tail]

theorem hardReset_entersBypass : Claim.HardResetEntersBypass := by
  intro s
  refine ⟨fun reset => congrArg Host.Outcome.next (if_pos reset), fun running sent idle noTail => ?_,
    fun running sent n idle tail => ?_, fun running id sending => ?_⟩
  · rw [hardReset_running s running, assertReset_idle _ sent idle, idlesSent_idle _ sent idle noTail]
    rfl
  · rw [hardReset_running s running, assertReset_idle _ sent idle, idlesSent_tail _ n tail]
    rfl
  · have ended : s.relay.assertReset = { Relay.reset with tx := some .ab } := by
      unfold Relay.assertReset
      rw [sending]
    rw [hardReset_running s running, ended]
    rfl

theorem supply_holdsAndEndsTheReset : Claim.SupplyHoldsAndEndsTheReset := by
  intro s
  refine ⟨fun ok => congrArg Host.Outcome.next (if_pos ok), fun lost low => ?_, fun lost high held => ?_⟩
  · refine congrArg Host.Outcome.next ?_
    unfold State.supplyInRange
    rw [lost, low]
    rfl
  · have supplied : exec .supplyInRange s = .next (s.withRelay Relay.reset).leaveReset := by
      refine congrArg Host.Outcome.next ?_
      unfold State.supplyInRange
      rw [lost, high]
      rfl
    have blocks := leaveReset_held s false false Relay.reset
    have same : s.heldInReset false false Relay.reset = s.withRelay Relay.reset :=
      congrArg (State.withRelay · Relay.reset) held.symm
    rw [same] at blocks
    obtain ⟨running, node, counter, _, _, _, _, _, _, _, _, _, _, _, _, _, relay⟩ := blocks
    exact ⟨_, supplied, running, relay, counter, node⟩

/-- Settles O7, branch by branch of the three commands. -/
theorem hardResetAndSupplyTakeHold : Obligations.HardResetAndSupplyTakeHold :=
  ⟨hardReset_entersBypass, supply_holdsAndEndsTheReset⟩

/-! ## The loss of the link and the millisecond (R160, R164) -/

theorem linkLoss_entersStandalone : Claim.LinkLossEntersStandalone := by
  intro s online timeout silent idle
  have timer : s.linkTimer = .running := by
    unfold State.linkTimer
    rw [online]
    exact if_neg timeout
  have lost : s.linkLost = true := by
    unfold State.linkLost State.engineBusy
    rw [timer, idle]
    simpa using silent
  refine congrArg Host.Outcome.next ?_
  rw [lost, loseLink_eq]
  rfl

theorem silenceNext_eq (s : State) :
    s.silenceNext =
      if s.node.state = .standalone ∨ (s.node.state = .online ∧ s.setting .lossTimeout ≠ 0)
        then min 25500 (s.node.silence + 1) else s.node.silence := by
  unfold State.silenceNext
  cases state : s.node.state with
  | online =>
    by_cases timeout : s.setting .lossTimeout = 0
    · have stopped : s.linkTimer = .stopped := (linkTimer_stopped_iff s).mpr (by simp [state, timeout])
      rw [stopped]
      exact (if_neg fun counts => counts.elim (fun h => by cases h) fun h => h.2 timeout).symm
    · have running : s.linkTimer = .running := by
        unfold State.linkTimer
        rw [state]
        exact if_neg timeout
      rw [running]
      exact (if_pos (Or.inr ⟨rfl, timeout⟩)).symm
  | standalone =>
    unfold State.linkTimer
    rw [state]
    rfl
  | _ =>
    unfold State.linkTimer
    rw [state]
    rfl

theorem milliseconds_counted : Claim.MillisecondsAreCounted := by
  intro s running
  have ticks : exec .millisecondTick s = .next s.millisecond := by
    refine congrArg Host.Outcome.next ?_
    rw [running]
    rfl
  exact ⟨s.millisecond, ticks, rfl, rfl, silenceNext_eq s, rfl,
    fun k => by rw [keysMillisecond_key]; exact ⟨rfl, rfl⟩, rfl⟩

/-- Settles O57, by what the expiry and the millisecond write. -/
theorem linkLossAndMilliseconds : Obligations.LinkLossAndMilliseconds :=
  ⟨linkLoss_entersStandalone, milliseconds_counted⟩

end Sys2Proof.Machine
end

section
/-! The Frame Relay: the symbols of a frame received (R171 to R174), transmission (R177), and bypass (R179 to R181). -/

namespace Sys2Proof.Machine

/-! ## The commands in RELAY -/

theorem exec_frameEnd {s : State} (e : FrameEnd) (relays : s.relay.mode = .relay) :
    exec (.frameEnd e) s = .next (s.frameEnd e) := by
  refine congrArg Host.Outcome.next (if_pos ?_)
  unfold State.relays
  rw [relays]
  rfl

theorem exec_frameOpen {s : State} (relays : s.relay.mode = .relay) : exec .frameOpen s = .next s.frameOpen := by
  refine congrArg Host.Outcome.next (if_pos ?_)
  unfold State.relays
  rw [relays]
  rfl

theorem exec_byteReceived {s : State} (sym : Symbol) (relays : s.relay.mode = .relay) :
    exec (.byteReceived sym) s = .next (s.byteReceived sym) := by
  refine congrArg Host.Outcome.next (if_pos ?_)
  unfold State.relays
  rw [relays]
  rfl

theorem frameEnd_storing {s : State} {id : SlotId} (e : FrameEnd) (storing : s.relay.rx = .storing id) :
    s.frameEnd e = s.endStored id e := by
  unfold State.frameEnd
  rw [storing]

theorem frameEnd_unstored {s : State} {n : Nat} (e : FrameEnd) (unstored : s.relay.rx = .unstored n) :
    s.frameEnd e = s.endUnstored n e := by
  unfold State.frameEnd
  rw [unstored]

theorem frameEnd_discarding {s : State} (e : FrameEnd) (discarding : s.relay.rx = .discarding) :
    s.frameEnd e = s.endDiscarding e := by
  unfold State.frameEnd
  rw [discarding]

/-! ## Slots that become READY -/

theorem markReady_receive (s : State) (id : SlotId) (mark : EndMark) (rx : Receive) :
    (s.markReady id mark).setReceive rx = s.readied id mark rx s.relay.errors := by
  cases id <;> rfl

theorem endBad_receive (s : State) (id : SlotId) (rx : Receive) :
    (s.endBad id).setReceive rx = s.readied id .ab rx s.errorsNext := by
  cases id <;> rfl

theorem readied_relays (s : State) (id : SlotId) (mark : EndMark) (rx : Receive) (errors : Nat) :
    (s.readied id mark rx errors).relay.mode = s.relay.mode := by
  cases id <;> rfl

theorem readied_rx (s : State) (id : SlotId) (mark : EndMark) (rx : Receive) (errors : Nat) :
    (s.readied id mark rx errors).relay.rx = rx := by
  cases id <;> rfl

/-! ## Opening a frame (R171) -/

theorem frameOpen_between {s : State} (between : s.relay.rx = .between) : s.frameOpen = s.openFrame := by
  unfold State.frameOpen
  rw [between]

theorem frameOpen_discarding {s : State} (discarding : s.relay.rx = .discarding) : s.frameOpen = s.openFrame := by
  unfold State.frameOpen
  rw [discarding]

/-- A frame is opened alike whatever the receiver did before. -/
theorem openFrame_receive (s : State) (rx : Receive) : (s.setReceive rx).openFrame = s.openFrame := by
  unfold State.openFrame
  by_cases one : s.relay.slot1.isFree = true
  · rw [if_pos one]; exact if_pos one
  · rw [if_neg one]
    refine (if_neg one).trans ?_
    by_cases two : s.relay.slot2.isFree = true
    · rw [if_pos two]; exact if_pos two
    · rw [if_neg two]; exact if_neg two

theorem isFree_iff (slot : Slot) : slot.isFree = true ↔ slot.use = .free := beq_iff_eq

theorem openFrame_one {s : State} (free : s.relay.slot1.use = .free) :
    s.openFrame = s.withRelay { s.relay with slot1 := ⟨.filling, [], [], .ed⟩, rx := .storing .one } := by
  unfold State.openFrame
  rw [if_pos ((isFree_iff _).mpr free)]
  rfl

theorem openFrame_two {s : State} (busy : s.relay.slot1.use ≠ .free) (free : s.relay.slot2.use = .free) :
    s.openFrame = s.withRelay { s.relay with slot2 := ⟨.filling, [], [], .ed⟩, rx := .storing .two } := by
  unfold State.openFrame
  rw [if_neg (mt (isFree_iff _).mp busy), if_pos ((isFree_iff _).mpr free)]
  rfl

theorem openFrame_unstored {s : State} (busy1 : s.relay.slot1.use ≠ .free) (busy2 : s.relay.slot2.use ≠ .free) :
    s.openFrame = s.withRelay { s.relay with rx := .unstored 0 } := by
  unfold State.openFrame
  rw [if_neg (mt (isFree_iff _).mp busy1), if_neg (mt (isFree_iff _).mp busy2)]
  rfl

theorem exec_frameOpen_between {s : State} (relays : s.relay.mode = .relay) (between : s.relay.rx = .between) :
    exec .frameOpen s = .next s.openFrame := by
  rw [exec_frameOpen relays, frameOpen_between between]

/-- The SD that cuts a stored frame opens the next one. -/
theorem endStored_cutBySd (s : State) (id : SlotId) :
    s.endStored id .cutBySd = (s.readied id .ab .between s.errorsNext).openFrame := by
  rw [← endBad_receive, openFrame_receive]
  rfl

/-- The SD that cuts an overrun frame opens the next one. -/
theorem endUnstored_cutBySd (s : State) (n : Nat) :
    s.endUnstored n .cutBySd =
      (s.withRelay { s.relay with rx := .between, errors := s.errorsNext }).openFrame :=
  (openFrame_receive s.countError .between).symm

theorem frame_opensInTheFirstFreeSlot : Claim.FrameOpensInTheFirstFreeSlot := by
  intro s relays closed
  have opens : exec .frameOpen s = .next s.openFrame := by
    rw [exec_frameOpen relays]
    exact congrArg _ (closed.elim frameOpen_between frameOpen_discarding)
  refine ⟨fun free => ?_, fun busy free => ?_, fun busy1 busy2 => ?_⟩
  · rw [opens, openFrame_one free]
  · rw [opens, openFrame_two busy free]
  · rw [opens, openFrame_unstored busy1 busy2]

theorem sd_cutsTheOpenFrame : Claim.AnSdCutsTheOpenFrame := by
  intro s relays
  refine ⟨fun id storing => ?_, fun n unstored => ?_⟩
  · rw [exec_frameOpen_between ((readied_relays ..).trans relays) (readied_rx ..), ← endStored_cutBySd,
      exec_frameOpen relays]
    unfold State.frameOpen
    rw [storing]
  · have opens := exec_frameOpen_between
      (s := s.withRelay { s.relay with rx := .between, errors := s.errorsNext }) relays rfl
    refine Eq.trans ?_ opens.symm
    rw [← endUnstored_cutBySd s n, exec_frameOpen relays]
    unfold State.frameOpen
    rw [unstored]

/-! ## Bytes (R171, R173, R174) -/

/-- A data symbol and an invalid one are taken alike, as a byte with its mark. -/
theorem byteReceived_takeByte (s : State) {sym : Symbol} {b : Byte} {mark : Bool}
    (byte : (sym = .data b ∧ mark = false) ∨ (sym = .invalid ∧ b = 0 ∧ mark = true)) :
    s.byteReceived sym = s.takeByte b mark := by
  rcases byte with ⟨rfl, rfl⟩ | ⟨rfl, rfl, rfl⟩ <;> rfl

theorem endStored_oversize {s : State} {id : SlotId} (full : 254 ≤ (s.slot id).bytes.length) :
    s.endStored id .oversize = s.readied id .ab .discarding s.errorsNext :=
  (if_neg (Nat.not_lt.mpr full)).trans (endBad_receive ..)

theorem endUnstored_oversize {s : State} {n : Nat} (full : 254 ≤ n) :
    s.endUnstored n .oversize = s.withRelay { s.relay with rx := .discarding, errors := s.errorsNext } :=
  if_neg (Nat.not_lt.mpr full)

theorem bytes_storedUpTo254 : Claim.BytesAreStoredUpTo254 := by
  intro s sym b mark relays byte
  rw [exec_byteReceived sym relays, byteReceived_takeByte s byte]
  unfold State.takeByte
  refine ⟨fun id storing room => congrArg _ ?_, fun id storing full => congrArg _ ?_,
    fun n unstored room => congrArg _ ?_, fun n unstored full => congrArg _ ?_, fun closed => congrArg _ ?_⟩
  · rw [storing]
    exact if_pos room
  · rw [storing]
    exact (if_neg (Nat.not_lt.mpr full)).trans (endStored_oversize full)
  · rw [unstored]
    exact if_pos room
  · rw [unstored]
    exact (if_neg (Nat.not_lt.mpr full)).trans (endUnstored_oversize full)
  · rcases closed with rx | rx <;> rw [rx]

/-- Settles O10, by receive state. -/
theorem receivedSymbolsAreStored : Obligations.ReceivedSymbolsAreStored :=
  ⟨frame_opensInTheFirstFreeSlot, bytes_storedUpTo254, sd_cutsTheOpenFrame⟩

/-! ## Frames that are not handed over (R172 to R174) -/

theorem notGood_endedWithAbort : Claim.FramesNotGoodAreEndedWithAbort := by
  intro s id ⟨relays, storing⟩
  have ends : ∀ e, exec (.frameEnd e) s = .next (s.endStored id e) := fun e => by
    rw [exec_frameEnd e relays, frameEnd_storing e storing]
  refine ⟨?_, ?_, fun bad => ?_, fun full => ?_, ⟨_, ends .cutBySd, ?_⟩⟩
  · rw [ends, ← markReady_receive]
    rfl
  · rw [ends, ← endBad_receive]
    rfl
  · rw [ends, ← endBad_receive]
    refine congrArg Host.Outcome.next (if_neg ?_)
    rw [bad]
    decide
  · rw [ends, endStored_oversize (Nat.le_of_eq full.symm)]
  · rw [exec_frameOpen_between ((readied_relays ..).trans relays) (readied_rx ..), endStored_cutBySd]

theorem overrun_droppedAndCounted : Claim.OverrunFramesAreDroppedAndCounted := by
  intro s n relays unstored
  have ends : ∀ e, exec (.frameEnd e) s = .next (s.endUnstored n e) := fun e => by
    rw [exec_frameEnd e relays, frameEnd_unstored e unstored]
  refine ⟨fun e which => ?_, fun full => ?_, ⟨_, ends .cutBySd, ?_⟩⟩
  · rw [ends]
    rcases which with rfl | rfl | rfl <;> rfl
  · rw [ends, endUnstored_oversize full]
  · rw [endUnstored_cutBySd]
    exact exec_frameOpen_between relays rfl

theorem discarding_endsAtADelimiter : Claim.DiscardingEndsAtADelimiter := by
  intro s relays discarding
  have ends : ∀ e, exec (.frameEnd e) s = .next (s.endDiscarding e) := fun e => by
    rw [exec_frameEnd e relays, frameEnd_discarding e discarding]
  refine ⟨fun e which => ?_, ?_, ends .oversize⟩
  · rw [ends]
    rcases which with rfl | rfl | rfl <;> rfl
  · rw [ends, exec_frameOpen relays, frameOpen_discarding discarding]
    rfl

/-- Settles O11, by receive state and end. -/
theorem framesNotGoodAreAbortedOrDropped : Obligations.FramesNotGoodAreAbortedOrDropped :=
  ⟨notGood_endedWithAbort, overrun_droppedAndCounted, discarding_endsAtADelimiter⟩

/-! ## Transmission (R177) -/

theorem exec_transmitStart {s : State} (idles : Nat) (relays : s.relay.mode = .relay) :
    exec (.transmitStart idles) s = .next (s.transmitStart idles) := by
  refine congrArg Host.Outcome.next (if_pos ?_)
  unfold State.relays
  rw [relays]
  rfl

theorem transmission_waitsForTwoIdles : Claim.TransmissionWaitsForTwoIdles := by
  intro s idles sent relays idle
  rw [exec_transmitStart idles relays]
  unfold State.transmitStart
  rw [idle]
  refine ⟨fun id rest first two => ?_, fun some waits => ?_⟩
  · simp only [first]
    rw [if_pos two]
    rfl
  · have more : ¬idles = 0 := by omega
    cases ready : s.relay.readyOrder with
    | nil =>
      simp only
      rw [if_neg more]
      rfl
    | cons id rest =>
      have early : ¬2 ≤ sent + idles := by
        rcases waits with none_ | early
        · rw [ready] at none_
          cases none_
        · omega
      simp only
      rw [if_neg early, if_neg more]
      rfl

theorem sentSlots_becomeFree : Claim.SentSlotsBecomeFree := by
  intro s id relays sending
  have ends : exec .transmitEnd s = .next s.transmitEnd := by
    refine congrArg Host.Outcome.next (if_pos ?_)
    unfold State.relays
    rw [relays]
    rfl
  rw [ends]
  unfold State.transmitEnd
  rw [sending]
  cases id <;> rfl

/-- Settles O16, by what is READY and how many IDLE symbols have left. -/
theorem transmissionFollowsTwoIdles : Obligations.TransmissionFollowsTwoIdles :=
  ⟨transmission_waitsForTwoIdles, sentSlots_becomeFree⟩

/-! ## Bypass (R179 to R181) -/

theorem bypassSymbol_bypass {s : State} {rep : Repetition} (sym : Symbol) (supplied : s.supplyOk = true)
    (bypass : s.relay.mode = .bypass rep) (begun : rep ≠ .waiting) : s.bypassSymbol sym = s.repeatSymbol rep sym := by
  unfold State.bypassSymbol
  rw [if_pos supplied, bypass]
  cases rep with
  | waiting => exact absurd rfl begun
  | between => rfl
  | inFrame n => rfl

theorem bypassSymbol_waiting {s : State} (sym : Symbol) (supplied : s.supplyOk = true)
    (bypass : s.relay.mode = .bypass .waiting) : s.bypassSymbol sym = s.awaitRepetition sym := by
  unfold State.bypassSymbol
  rw [if_pos supplied, bypass]

theorem bypassSymbol_tail {s : State} {n : Nat} (sym : Symbol) (supplied : s.supplyOk = true)
    (tail : s.relay.mode = .bypassTail n) : s.bypassSymbol sym = s.tailSymbol n sym := by
  unfold State.bypassSymbol
  rw [if_pos supplied, tail]

theorem idlesSent_bypass {r : Relay} {rep : Repetition} {sent : Nat} (bypass : r.mode = .bypass rep)
    (idle : r.transmit = .idle sent) : r.idlesSent = sent :=
  idlesSent_idle r sent idle fun n tail => by cases bypass.symm.trans tail

theorem bypass_repeatsEverySymbol : Claim.BypassRepeatsEverySymbol := by
  intro s sym sent supplied idle
  refine ⟨fun rep bypass begun => ?_, fun waiting isSd two => ?_, fun waiting other => ?_⟩
  · refine congrArg Host.Outcome.next ?_
    rw [bypassSymbol_bypass sym supplied bypass begun]
    cases sym with
    | data b =>
      rw [← idle]
      cases rep with
      | waiting => exact absurd rfl begun
      | between => rfl
      | inFrame n => rfl
    | invalid =>
      rw [← idle]
      cases rep with
      | waiting => exact absurd rfl begun
      | between => rfl
      | inFrame n => rfl
    | idle =>
      have counted := idlesSent_bypass (r := ((s.setMode (.bypass .between)).transmit .idle).relay) rfl idle
      exact congrArg (fun n => ((s.setMode (.bypass .between)).transmit .idle).countIdle (n + 1)) counted
    | sd => rfl
    | ed => rfl
    | ab => rfl
  · refine congrArg Host.Outcome.next ?_
    subst isSd
    rw [bypassSymbol_waiting _ supplied waiting]
    exact if_pos ⟨rfl, by rw [idlesSent_bypass waiting idle]; exact two⟩
  · refine congrArg Host.Outcome.next ?_
    rw [bypassSymbol_waiting _ supplied waiting]
    unfold State.awaitRepetition
    rw [idlesSent_bypass waiting idle, if_neg fun begins => other.elim (absurd begins.1) fun few => by omega]
    rfl

theorem exec_bypassTailEnd {s : State} {n : Nat} (e : FrameEnd) (tail : s.relay.mode = .bypassTail n) :
    exec (.bypassTailEnd e) s = .next (s.tailEnd n e) := by
  refine congrArg Host.Outcome.next ?_
  unfold State.bypassTailEnd
  rw [tail]

theorem tailSymbols_repeatedUntilTheEnd : Claim.TailSymbolsAreRepeatedUntilTheEnd := by
  intro s n supplied tail
  have repeats : ∀ sym, exec (.bypassRepeat sym) s = .next (s.tailSymbol n sym) := fun sym =>
    congrArg Host.Outcome.next (bypassSymbol_tail sym supplied tail)
  have byte : ∀ sym, (∃ b, sym = .data b) ∨ sym = .invalid → s.tailSymbol n sym = s.tailByte n sym := by
    rintro sym (⟨b, rfl⟩ | rfl) <;> rfl
  refine ⟨fun sym isByte => ⟨fun room => ?_, fun full => ?_⟩, ?_, ?_, ?_, ?_⟩
  · rw [repeats, byte sym isByte]
    exact congrArg Host.Outcome.next (if_pos room)
  · rw [repeats, byte sym isByte, exec_bypassTailEnd .oversize tail]
    exact congrArg Host.Outcome.next (if_neg (Nat.not_lt.mpr full))
  all_goals rw [repeats, exec_bypassTailEnd _ tail]; rfl

theorem bypassTail_endsInRelay : Claim.BypassTailEndsInRelay := by
  intro s n sent tail idle left
  have ends : ∀ e, exec (.bypassTailEnd e) s = .next (s.tailEnd n e) := fun e => exec_bypassTailEnd e tail
  refine ⟨ends _, ends _, ends _, fun full => ?_, ?_⟩
  · rw [ends]
    exact congrArg Host.Outcome.next (if_neg (Nat.not_lt.mpr full))
  · rw [ends]
    exact (exec_frameOpen_between rfl rfl).symm

/-- Settles O17, by mode and symbol. -/
theorem bypassRepeatsUntilTheTailEnds : Obligations.BypassRepeatsUntilTheTailEnds :=
  ⟨bypass_repeatsEverySymbol, tailSymbols_repeatedUntilTheEnd, bypassTail_endsInRelay⟩

end Sys2Proof.Machine
end

section
/-! A frame that is held keeps its length to its end (R176). -/

namespace Sys2Proof.Machine

/-- Every slot that holds a frame goes on holding one, of the same length. -/
def KeepsLengths (s t : State) : Prop :=
  ∀ id, (s.slot id).use ≠ .free → (t.slot id).use ≠ .free ∧ (t.slot id).bytes.length = (s.slot id).bytes.length

section Lengths

variable {s t u : State} (id : SlotId)

theorem KeepsLengths.of_slots (same : ∀ id, t.slot id = s.slot id) : KeepsLengths s t := fun id held => by
  rw [same id]
  exact ⟨held, rfl⟩

theorem KeepsLengths.refl (s : State) : KeepsLengths s s := .of_slots fun _ => rfl

theorem KeepsLengths.trans (first : KeepsLengths s t) (then_ : KeepsLengths t u) : KeepsLengths s u := fun id held => by
  obtain ⟨heldT, lengthT⟩ := first id held
  obtain ⟨heldU, lengthU⟩ := then_ id heldT
  exact ⟨heldU, lengthU.trans lengthT⟩

/-- What writes the fields of the relay other than the slots, or no field of the relay, keeps the lengths. -/
theorem KeepsLengths.of_relay (one : t.relay.slot1 = s.relay.slot1) (two : t.relay.slot2 = s.relay.slot2) :
    KeepsLengths s t :=
  .of_slots fun id => by cases id <;> assumption

theorem putSlot_keepsLengths (x : Slot)
    (keeps : (s.slot id).use ≠ .free → x.use ≠ .free ∧ x.bytes.length = (s.slot id).bytes.length) :
    KeepsLengths s (s.putSlot id x) := fun other held => by
  by_cases here : other = id
  · subst here
    rw [slot_putSlot]
    exact keeps held
  · rw [slot_putSlot_ne _ _ _ _ here]
    exact ⟨held, rfl⟩

theorem editFrame_keepsLengths (at_ : Nat) (new : List Byte) : KeepsLengths s (s.editFrame id at_ new) :=
  putSlot_keepsLengths id _ fun held => ⟨held, overwrite_length ..⟩

theorem markReady_keepsLengths (mark : EndMark) : KeepsLengths s (s.markReady id mark) :=
  (putSlot_keepsLengths id { s.slot id with use := .ready, mark := mark } fun _ => ⟨nofun, rfl⟩).trans
    (.of_relay rfl rfl)

theorem readyGood_keepsLengths : KeepsLengths s (s.readyGood id) :=
  (editFrame_keepsLengths id _ _).trans (markReady_keepsLengths id .ed)

theorem setReceive_keepsLengths (rx : Receive) : KeepsLengths s (s.setReceive rx) := .of_relay rfl rfl

theorem openFrame_keepsLengths : KeepsLengths s s.openFrame := by
  have fills : ∀ id, (s.slot id).use = .free → KeepsLengths s (s.fill id) := fun id free =>
    (putSlot_keepsLengths id _ fun held => absurd free held).trans (setReceive_keepsLengths _)
  unfold State.openFrame
  split
  · next one => exact fills .one ((isFree_iff _).mp one)
  · split
    · next two => exact fills .two ((isFree_iff _).mp two)
    · exact setReceive_keepsLengths _

theorem endBad_keepsLengths : KeepsLengths s (s.endBad id) :=
  (markReady_keepsLengths id .ab).trans (.of_relay rfl rfl)

theorem reportGoodFrame_relay : s.reportGoodFrame.relay = s.relay := by
  rw [reportGoodFrame_frame]
  rfl

theorem takeAddress_relay (address : Byte) : (s.takeAddress address).relay = s.relay := by
  rw [takeAddress_frame]
  rfl

theorem enumerate_keepsLengths (bytes : List Byte) : KeepsLengths s (s.enumerate id bytes) := by
  unfold State.enumerate State.enumTake State.enumExhausted
  split
  · split
    · exact KeepsLengths.trans (.of_relay (by rw [takeAddress_relay]) (by rw [takeAddress_relay]))
        (editFrame_keepsLengths id _ _)
    · refine KeepsLengths.trans ?_ (editFrame_keepsLengths id _ _)
      split
      · exact .of_relay rfl rfl
      · exact .refl s
  · exact .refl s

theorem gatherPass_keepsLengths : KeepsLengths s (s.gatherPass id (s.slot id).bytes) := by
  unfold State.gatherPass
  split
  · refine KeepsLengths.trans (t := s.withQueue (s.gatherFill (s.slot id).bytes).2) (.of_relay rfl rfl) ?_
    exact putSlot_keepsLengths id _ fun held => ⟨held, fillSlots_length ..⟩
  · exact .refl s

theorem closeReply_keepsLengths (p : Processing) : KeepsLengths s (s.closeReply p) :=
  ((editFrame_keepsLengths _ _ _).trans (editFrame_keepsLengths _ _ _)).trans (editFrame_keepsLengths _ _ _)

theorem endProcessing_keepsLengths (p : Processing) (due : Option Scope) : KeepsLengths s (s.endProcessing p due) := by
  have closes : KeepsLengths s (if p.broadcast then s else s.closeReply p) := by
    split
    · exact .refl s
    · exact closeReply_keepsLengths p
  cases due with
  | none => exact closes.trans ((readyGood_keepsLengths p.slot).trans (.of_relay rfl rfl))
  | some scope => exact closes.trans (.of_relay rfl rfl)

theorem beginProcessing_keepsLengths (broadcast : Bool) (address : Byte) (request : List Byte) :
    KeepsLengths s (s.beginProcessing id broadcast address request) := by
  unfold State.beginProcessing State.afterItem
  split
  · exact endProcessing_keepsLengths _ _
  · exact .of_relay rfl rfl

theorem handOver_keepsLengths : KeepsLengths s (s.handOver id (s.slot id).bytes) := by
  unfold State.handOver
  split
  · exact (enumerate_keepsLengths id _).trans (readyGood_keepsLengths id)
  · split
    · exact (gatherPass_keepsLengths id).trans (readyGood_keepsLengths id)
    · split
      · exact beginProcessing_keepsLengths id _ _ _
      · exact readyGood_keepsLengths id

theorem endGood_keepsLengths : KeepsLengths s (s.endGood id) := by
  let reported := (s.setReceive .between).reportGoodFrame
  have relay : reported.relay = (s.setReceive .between).relay := reportGoodFrame_relay
  have same : ∀ id, reported.slot id = s.slot id := fun id => by
    unfold State.slot
    rw [relay]
    rfl
  have handed : KeepsLengths reported (reported.handOver id (s.slot id).bytes) := by
    rw [← same id]
    exact handOver_keepsLengths id
  exact (KeepsLengths.of_slots same).trans handed

theorem endStored_keepsLengths (e : FrameEnd) : KeepsLengths s (s.endStored id e) := by
  cases e with
  | closed =>
    simp only [State.endStored]
    split
    · split
      · exact .refl s
      · exact endGood_keepsLengths id
    · exact (endBad_keepsLengths id).trans (setReceive_keepsLengths _)
  | aborted => exact (markReady_keepsLengths id .ab).trans (setReceive_keepsLengths _)
  | cutByIdle => exact (endBad_keepsLengths id).trans (setReceive_keepsLengths _)
  | cutBySd => exact (endBad_keepsLengths id).trans openFrame_keepsLengths
  | oversize =>
    simp only [State.endStored]
    split
    · exact .refl s
    · exact (endBad_keepsLengths id).trans (setReceive_keepsLengths _)

theorem endUnstored_keepsLengths (n : Nat) (e : FrameEnd) : KeepsLengths s (s.endUnstored n e) := by
  have counted : KeepsLengths s s.countError := .of_relay rfl rfl
  cases e with
  | cutBySd => exact counted.trans openFrame_keepsLengths
  | oversize =>
    simp only [State.endUnstored]
    split
    · exact .refl s
    · exact counted.trans (setReceive_keepsLengths _)
  | _ => exact counted.trans (setReceive_keepsLengths _)

theorem endDiscarding_keepsLengths (e : FrameEnd) : KeepsLengths s (s.endDiscarding e) := by
  cases e with
  | cutBySd => exact openFrame_keepsLengths
  | oversize => exact .refl s
  | _ => exact setReceive_keepsLengths _

theorem frameEnd_keepsLengths (e : FrameEnd) : KeepsLengths s (s.frameEnd e) := by
  unfold State.frameEnd
  split
  · exact .refl s
  · exact endStored_keepsLengths _ e
  · exact endUnstored_keepsLengths _ e
  · exact endDiscarding_keepsLengths e

end Lengths

theorem frames_keepTheirLength : Claim.FramesKeepTheirLength := by
  intro s t e id held h
  cases h
  by_cases relays : s.relays = true
  · rw [if_pos relays]
    exact (frameEnd_keepsLengths e id held).2
  · rw [if_neg relays]

/-- Settles O18, by the operations an end of frame is made of. -/
theorem framesKeepLengthAndBounds : Obligations.FramesKeepLengthAndBounds := ⟨frames_keepTheirLength, relay_boundsKept⟩

end Sys2Proof.Machine
end

section
/-! Replies: where a reply item is written, and the frame once its reply is closed (R184 to R186). -/

namespace Sys2Proof.Machine

/-! ## The bytes of a reply -/

/-- What closing a reply makes of a frame's bytes. -/
def Processing.closed (p : Processing) (bytes : List Byte) : List Byte :=
  overwrite
    (overwrite (overwrite bytes (4 + p.reply) (List.replicate (p.request.length - p.reply) 0)) 4
      ([natByte p.answered].take p.request.length))
    0 [replyHeaderByte p.truncated p.resetStop, p.address]

theorem closeReply_eq (s : State) (p : Processing) :
    s.closeReply p = s.putSlot p.slot { s.slot p.slot with bytes := p.closed (s.slot p.slot).bytes } := by
  unfold State.closeReply Processing.closed State.editFrame
  simp only [slot_putSlot, putSlot_putSlot]

theorem writeReply_eq (s : State) (p : Processing) (item : List Byte) :
    s.writeReply p item =
      s.putSlot p.slot { s.slot p.slot with bytes := overwrite (s.slot p.slot).bytes (4 + p.reply) item } := rfl

theorem replyHeaderByte_eq (truncated resetStop : Bool) :
    replyHeaderByte truncated resetStop =
      3#8 ||| (if truncated then 0x40 else 0) ||| (if resetStop then 0x80 else 0) := by
  cases truncated <;> cases resetStop <;> rfl

/-- Bytes written within the payload of a frame. -/
theorem overwrite_payload (b0 b1 tag length : Byte) (payload crc item : List Byte) (reply : Nat)
    (fits : reply + item.length ≤ payload.length) :
    overwrite (b0 :: b1 :: tag :: length :: (payload ++ crc)) (4 + reply) item =
      b0 :: b1 :: tag :: length ::
        (payload.take reply ++ item ++ payload.drop (reply + item.length) ++ crc) := by
  rw [overwrite_eq _ _ _ (by simp; omega), show 4 + reply = reply + 1 + 1 + 1 + 1 by omega,
    show reply + 1 + 1 + 1 + 1 + item.length = reply + item.length + 1 + 1 + 1 + 1 by omega]
  simp only [List.take_succ_cons, List.drop_succ_cons, List.take_append_of_le_length (show reply ≤ payload.length by omega),
    List.drop_append_of_le_length fits, List.cons_append, List.append_assoc]

theorem closed_eq (p : Processing) (b0 b1 tag length : Byte) (payload crc : List Byte)
    (same : payload.length = p.request.length) (started : 1 ≤ p.reply) (fits : p.reply ≤ payload.length) :
    p.closed (b0 :: b1 :: tag :: length :: (payload ++ crc)) =
      (3#8 ||| (if p.truncated then 0x40 else 0) ||| (if p.resetStop then 0x80 else 0)) :: p.address :: tag :: length ::
        ((BitVec.ofNat 8 p.answered :: (payload.drop 1).take (p.reply - 1)) ++
          List.replicate (payload.length - p.reply) 0 ++ crc) := by
  unfold Processing.closed
  have zeros : p.reply + (List.replicate (payload.length - p.reply) (0 : Byte)).length = payload.length := by
    rw [List.length_replicate]; omega
  rw [← same, overwrite_payload _ _ _ _ _ _ _ _ (Nat.le_of_eq zeros), zeros, List.drop_length, List.append_nil,
    replyHeaderByte_eq]
  cases payload with
  | nil => simp at fits; omega
  | cons first rest =>
    obtain ⟨reply, isReply⟩ : ∃ reply, p.reply = reply + 1 := ⟨p.reply - 1, by omega⟩
    rw [isReply]
    simp [overwrite, natByte]

theorem closed_empty (p : Processing) (b0 b1 tag length : Byte) (crc : List Byte) (empty : p.request = []) :
    p.closed (b0 :: b1 :: tag :: length :: crc) =
      (3#8 ||| (if p.truncated then 0x40 else 0) ||| (if p.resetStop then 0x80 else 0)) :: p.address :: tag :: length ::
        crc := by
  unfold Processing.closed
  have nothing : List.replicate (p.request.length - p.reply) (0 : Byte) = [] := by rw [empty]; simp
  rw [nothing, empty, replyHeaderByte_eq]
  cases crc with
  | nil => cases p.reply <;> rfl
  | cons c rest =>
    have same : overwrite (b0 :: b1 :: tag :: length :: c :: rest) (4 + p.reply) [] =
        b0 :: b1 :: tag :: length :: c :: rest := by
      cases p.reply <;> rfl
    rw [same]
    rfl

theorem replies_closedInPlace : Claim.RepliesAreClosedInPlace := by
  intro s p b0 b1 tag length payload crc bytes same started fits
  rw [closeReply_eq, slot_putSlot]
  simp only
  rw [bytes, closed_eq p b0 b1 tag length payload crc same started fits]

theorem emptyReplies_stayEmpty : Claim.EmptyRepliesStayEmpty := by
  intro s p b0 b1 tag length crc bytes empty notTruncated notStopped
  rw [closeReply_eq, slot_putSlot]
  simp only
  rw [bytes, closed_empty p b0 b1 tag length crc empty, notTruncated, notStopped]
  rfl

/-- Settles O19, by the three edits of a closed reply. -/
theorem repliesAreLaidOutInPlace : Obligations.RepliesAreLaidOutInPlace := ⟨replies_closedInPlace, emptyReplies_stayEmpty⟩

/-! ## Items answered (R186) -/

/-- A frame readied carries ED and its CRC, and the receiver is as it was. -/
theorem readyGood_readied (s : State) (id : SlotId) (long : 2 ≤ (s.slot id).bytes.length) :
    s.readyGood id =
      (s.putSlot id { s.slot id with bytes := withCrc (s.slot id).bytes }).readied id .ed s.relay.rx s.relay.errors := by
  rw [readyGood_eq s id long]
  cases id <;> rfl

theorem withCrc_congr {a b : List Byte} (same : frameBody a = frameBody b) : withCrc a = withCrc b := by
  unfold withCrc
  rw [same]

/-- The slot's bytes once the item is written. -/
theorem writeReply_item (s : State) (p : Processing) (b0 b1 tag length : Byte) (payload crc item : List Byte)
    (bytes : (s.slot p.slot).bytes = b0 :: b1 :: tag :: length :: (payload ++ crc))
    (fits : p.reply + item.length ≤ payload.length) :
    s.writeReply p item =
      s.putSlot p.slot { s.slot p.slot with
        bytes := b0 :: b1 :: tag :: length ::
          (payload.take p.reply ++ item ++ payload.drop (p.reply + item.length) ++ crc) } := by
  rw [writeReply_eq, bytes, overwrite_payload _ _ _ _ _ _ _ _ fits]

theorem putSlot_rx (s : State) (id : SlotId) (x : Slot) : (s.putSlot id x).relay.rx = s.relay.rx := by
  cases id <;> rfl

theorem putSlot_errors (s : State) (id : SlotId) (x : Slot) : (s.putSlot id x).relay.errors = s.relay.errors := by
  cases id <;> rfl

theorem closed_length (p : Processing) (bytes : List Byte) : (p.closed bytes).length = bytes.length := by
  unfold Processing.closed
  rw [overwrite_length, overwrite_length, overwrite_length]

/-- The end of the processing of an addressed COMMAND whose slot holds `bytes`: the reply closed, and the frame readied
with its CRC. -/
theorem endProcessing_addressed (s : State) (p : Processing) (id : SlotId) (bytes : List Byte) (slot : p.slot = id)
    (addressed : p.broadcast = false) (long : 2 ≤ bytes.length) :
    (s.putSlot id { s.slot id with bytes := bytes }).endProcessing p none =
      ((s.putSlot id { s.slot id with bytes := withCrc (p.closed bytes) }).readied id .ed
        s.relay.rx s.relay.errors).withEngine .idle := by
  subst slot
  unfold State.endProcessing
  rw [addressed]
  refine congrArg (State.withEngine · .idle) ?_
  rw [if_neg (by decide), closeReply_eq, slot_putSlot, putSlot_putSlot,
    readyGood_readied _ _ (by rw [slot_putSlot]; simp only; rw [closed_length]; exact long), slot_putSlot,
    putSlot_putSlot, putSlot_rx, putSlot_errors]

/-- The items of a reply once one more is written after them. -/
theorem take_written {payload item : List Byte} {reply : Nat} (started : 1 ≤ reply)
    (fits : reply + item.length ≤ payload.length) :
    ((payload.take reply ++ item ++ payload.drop (reply + item.length)).drop 1).take (reply + item.length - 1) =
      (payload.drop 1).take (reply - 1) ++ item := by
  have front : (payload.take reply ++ item).length = reply + item.length := by simp; omega
  rw [← List.drop_take, ← front, List.take_left, List.drop_append_of_le_length (by simp; omega), List.drop_take]

/-- A reply closed over an item written at its end. -/
theorem closed_written (p : Processing) (params : List Byte) (b0 b1 tag length : Byte) (payload item crc : List Byte)
    (same : payload.length = p.request.length) (started : 1 ≤ p.reply)
    (fits : p.reply + item.length ≤ payload.length) :
    (p.past params item.length).closed
        (b0 :: b1 :: tag :: length ::
          (payload.take p.reply ++ item ++ payload.drop (p.reply + item.length) ++ crc)) =
      (3#8 ||| (if p.truncated then 0x40 else 0) ||| (if p.resetStop then 0x80 else 0)) :: p.address :: tag :: length ::
        ((BitVec.ofNat 8 (p.answered + 1) :: ((payload.drop 1).take (p.reply - 1) ++ item)) ++
          List.replicate (payload.length - (p.reply + item.length)) 0 ++ crc) := by
  have whole : (payload.take p.reply ++ item ++ payload.drop (p.reply + item.length)).length = payload.length := by
    simp; omega
  rw [closed_eq (p.past params item.length) b0 b1 tag length _ crc (whole.trans same)
    (show 1 ≤ p.reply + item.length by omega) (by rw [whole]; exact fits), whole, ← take_written started fits]
  rfl

/-- Settles O59: the item is written at the reply position; after the last one the reply is closed over it. -/
theorem itemsAreAnsweredInPlace : Obligations.ItemsAreAnsweredInPlace := by
  intro s p code params status data b0 b1 tag length c0 c1 payload addressed bytes same started fits value item finish
  have isItem : replyItem code status data = item := by
    cases status <;> rfl
  have itemLength : item.length = 3 + data.length := by simp [item]; omega
  have atFinish : p.reply + item.length = finish := by rw [itemLength]; omega
  have written := writeReply_item s p b0 b1 tag length payload [c0, c1] item (bytes.trans (by simp)) (by omega)
  rw [atFinish] at written
  unfold State.answered State.afterItem
  rw [isItem, written]
  refine ⟨fun more => ?_, fun last => ?_⟩
  · rw [if_neg (by simpa [Processing.count, Processing.past] using more)]
    have past : p.past params (3 + data.length) =
        { p with parse := p.parse + 2 + params.length, answered := p.answered + 1, reply := finish } := by
      unfold Processing.past
      rw [← Nat.add_assoc]
    rw [past]
    simp
  · rw [if_pos (by simpa [Processing.count, Processing.past] using last)]
    have long : 2 ≤ (b0 :: b1 :: tag :: length ::
        (payload.take p.reply ++ item ++ payload.drop finish ++ [c0, c1])).length := by simp
    rw [endProcessing_addressed s (p.past params (3 + data.length)) p.slot _ rfl addressed long, ← itemLength, ← atFinish,
      closed_written p params b0 b1 tag length payload item [c0, c1] same started (by omega)]
    simp

end Sys2Proof.Machine
end

section
/-! The hand-over of a good frame: to no owner (R148, R161, R175), to ENUMERATE (R149 to R153), and to a COMMAND (R183 to
R185). -/

namespace Sys2Proof.Machine

variable {s : State} {id : SlotId} {kind : BitVec 4}

/-! ## From the end of the frame to its owner -/

/-- A good frame that need not wait is handed over, after the good-frame report. -/
theorem frameEnd_good (good : s.closesGood id kind) (free : s.mustWait (s.slot id).bytes = false) :
    exec (.frameEnd .closed) s =
      .next ((s.reportGoodFrame.setReceive .between).handOver id (s.slot id).bytes) := by
  obtain ⟨⟨relays, storing⟩, crc, _⟩ := good
  have report : (s.setReceive .between).reportGoodFrame = s.reportGoodFrame.setReceive .between := by
    unfold State.reportGoodFrame
    rw [show (s.setReceive .between).node = s.node from rfl]
    split
    · rfl
    · rfl
    · rw [returnOnline_eq, returnOnline_eq]; rfl
    · rfl
  rw [exec_frameEnd _ relays, frameEnd_storing _ storing, ← report]
  refine congrArg Host.Outcome.next ?_
  simp only [State.endStored]
  rw [if_pos crc, if_neg (by rw [free]; decide)]
  rfl

theorem mustWait_idle (bytes : List Byte) (idle : s.engine = .idle) : s.mustWait bytes = false := by
  unfold State.mustWait State.engineBusy
  rw [idle]
  rfl

theorem reportGoodFrame_slot : s.reportGoodFrame.slot id = s.slot id := by
  unfold State.slot
  rw [reportGoodFrame_relay]

theorem reportGoodFrame_awake (awake : s.node.state = .online ∨ s.node.state = .quiescent) :
    s.reportGoodFrame = s.withNode (if s.node.state = .online then { s.node with silence := 0 } else s.node) := by
  unfold State.reportGoodFrame
  rcases awake with state | state <;> rw [state] <;> rfl

theorem reportGoodFrame_unaddressed (state : s.node.state = .unaddressed) : s.reportGoodFrame = s := by
  unfold State.reportGoodFrame
  rw [state]

theorem reportGoodFrame_standalone (state : s.node.state = .standalone) : s.reportGoodFrame = Claim.resumed s := by
  unfold State.reportGoodFrame
  rw [state]
  exact returnOnline_eq s

/-- A frame readied as its owner leaves it, the receiver between frames. -/
theorem readyGood_sentOn (long : 2 ≤ (s.slot id).bytes.length) :
    (s.setReceive .between).readyGood id = s.sentOn id (withCrc (s.slot id).bytes) := by
  cases id <;> exact readyGood_readied (s.setReceive .between) _ long

/-- A frame as its owner rewrote it, sent on. -/
theorem putSlot_sentOn (bytes : List Byte) (long : 2 ≤ bytes.length) :
    ((s.setReceive .between).putSlot id { s.slot id with bytes := bytes }).readyGood id =
      s.sentOn id (withCrc bytes) := by
  have moved : (s.setReceive .between).putSlot id { s.slot id with bytes := bytes } =
      (s.putSlot id { s.slot id with bytes := bytes }).setReceive .between := by
    cases id <;> rfl
  rw [moved, readyGood_sentOn (by rw [slot_putSlot]; exact long), slot_putSlot]
  cases id <;> rfl

/-- An owner's edit, sent on. -/
theorem editFrame_sentOn (at_ : Nat) (new : List Byte) (long : 2 ≤ (s.slot id).bytes.length) :
    ((s.setReceive .between).editFrame id at_ new).readyGood id =
      s.sentOn id (withCrc (overwrite (s.slot id).bytes at_ new)) :=
  putSlot_sentOn _ (by rw [overwrite_length]; exact long)

/-! ## Frames without an owner (R148, R161, R175) -/

theorem handOver_unowned (bytes : List Byte) (noEnumerate : frameKind bytes ≠ 1)
    (noGather : frameKind bytes = 4 → s.gathers = false) (noCommand : frameKind bytes = 2 → s.ownsCommand bytes = false) :
    s.handOver id bytes = s.readyGood id := by
  unfold State.handOver
  rw [if_neg noEnumerate, if_neg fun ⟨kind, gathers⟩ => Bool.noConfusion ((noGather kind).symm.trans gathers),
    if_neg fun ⟨kind, owns⟩ => Bool.noConfusion ((noCommand kind).symm.trans owns)]

theorem mustWait_unowned {bytes : List Byte} (noEnumerate : frameKind bytes ≠ 1)
    (noCommand : frameKind bytes = 2 → s.reportGoodFrame.ownsCommand bytes = false) : s.mustWait bytes = false := by
  unfold State.mustWait
  rw [beq_eq_false_iff_ne.mpr noEnumerate, Bool.false_or]
  by_cases command : frameKind bytes = 2
  · rw [noCommand command, Bool.and_false, Bool.and_false]
  · rw [beq_eq_false_iff_ne.mpr command, Bool.false_and, Bool.and_false]

/-- A good frame that no owner takes goes on as it is, after the good-frame report. -/
theorem frameEnd_unowned (good : s.closesGood id kind) (noEnumerate : kind ≠ 1)
    (noGather : kind = 4 → s.reportGoodFrame.gathers = false)
    (noCommand : kind = 2 → s.reportGoodFrame.ownsCommand (s.slot id).bytes = false) :
    exec (.frameEnd .closed) s = .next (s.reportGoodFrame.sentOn id (s.slot id).bytes) := by
  have opened := good
  obtain ⟨_, crc, rfl⟩ := opened
  have long : 2 ≤ (s.slot id).bytes.length := by have := good_length _ crc; omega
  rw [frameEnd_good good (mustWait_unowned noEnumerate noCommand),
    handOver_unowned (s := s.reportGoodFrame.setReceive .between) _ noEnumerate noGather noCommand,
    readyGood_sentOn (by rw [reportGoodFrame_slot]; exact long), reportGoodFrame_slot, withCrc_of_good _ crc]

/-- The good-frame report leaves the address alone in a node that has not lost its link. -/
theorem heldNode_address (n : NodeControl) :
    (if n.state = .online then { n with silence := 0 } else n).address = n.address := by
  split <;> rfl

theorem heldNode_state (n : NodeControl) :
    (if n.state = .online then { n with silence := 0 } else n).state = n.state := by
  split <;> rfl

theorem awake_gathers (awake : s.node.state = .online ∨ s.node.state = .quiescent) : s.reportGoodFrame.gathers = true := by
  rw [reportGoodFrame_awake awake, gathers_iff]
  simp only [State.withNode_node, heldNode_state]
  exact awake

theorem unowned_sentOnUnchanged : Claim.UnownedGoodFramesAreSentOnUnchanged := by
  intro s id kind good awake noEnumerate noGather others
  rw [← reportGoodFrame_awake awake]
  refine frameEnd_unowned good noEnumerate (fun gather => absurd gather noGather) fun command => ?_
  obtain ⟨elsewhere, notAll⟩ := others command
  rw [reportGoodFrame_awake awake]
  unfold State.ownsCommand
  rw [State.withNode_node, heldNode_address, beq_eq_false_iff_ne.mpr elsewhere,
    beq_eq_false_iff_ne.mpr (show frameDest (s.slot id).bytes ≠ Config.broadcastAddress from notAll), Bool.or_false,
    Bool.and_false]

theorem unaddressed_onlyRelays : Claim.UnaddressedNodesOnlyRelay := by
  intro s id kind good state noEnumerate
  have same := reportGoodFrame_unaddressed state
  have deaf : s.reportGoodFrame.gathers = false := by
    unfold State.gathers
    rw [same, state]
    rfl
  have sent := frameEnd_unowned good noEnumerate (fun _ => deaf) fun _ => by
    unfold State.ownsCommand
    rw [deaf, Bool.false_and]
  rw [same] at sent
  exact sent

theorem goodFrames_endStandalone : Claim.GoodFramesEndStandalone := by
  intro s id good state
  rw [← reportGoodFrame_standalone state]
  exact frameEnd_unowned good (by decide) (fun h => absurd h (by decide)) fun h => absurd h (by decide)

theorem resumed_slot : (Claim.resumed s).slot id = s.slot id := by cases id <;> rfl

/-- What a returned node reports of a further good frame is nothing new. -/
theorem resumed_report : (Claim.resumed s).reportGoodFrame = Claim.resumed s := reportGoodFrame_awake (.inl rfl)

theorem framesInStandalone_takenOnline : Claim.FramesInStandaloneAreTakenOnline := by
  intro s id kind ⟨idle, good⟩ state
  have returned : (Claim.resumed s).closesGood id kind := by
    obtain ⟨storing, crc⟩ := good
    refine ⟨storing, ?_⟩
    rw [resumed_slot]
    exact crc
  rw [frameEnd_good good (mustWait_idle _ idle), frameEnd_good returned (mustWait_idle _ idle), resumed_report,
    resumed_slot, reportGoodFrame_standalone state]

/-- Settles O12, by the good-frame report in each node state. -/
theorem unownedGoodFramesAreSentOn : Obligations.UnownedGoodFramesAreSentOn :=
  ⟨unowned_sentOnUnchanged, unaddressed_onlyRelays, goodFrames_endStandalone, framesInStandalone_takenOnline⟩

/-! ## ENUMERATE (R149 to R153) -/

theorem frameEnd_enumerate (good : s.receivesGood id 1) :
    exec (.frameEnd .closed) s =
      .next (((s.reportGoodFrame.setReceive .between).enumerate id (s.slot id).bytes).readyGood id) := by
  obtain ⟨idle, closes⟩ := good
  rw [frameEnd_good closes (mustWait_idle _ idle)]
  unfold State.handOver
  rw [if_pos closes.2.2]

theorem enumerate_takes {bytes : List Byte} (accepted : enumAccepted bytes = true) (wants : s.wantsAddress bytes = true)
    (legal : (enumNext bytes).toNat ≤ 62) : s.enumerate id bytes = s.enumTake id bytes := by
  unfold State.enumerate
  rw [if_pos ⟨accepted, wants⟩, if_pos legal]

theorem enumerate_exhausts {bytes : List Byte} (accepted : enumAccepted bytes = true) (wants : s.wantsAddress bytes = true)
    (full : enumNext bytes = 63) : s.enumerate id bytes = s.enumExhausted id bytes := by
  unfold State.enumerate
  rw [if_pos ⟨accepted, wants⟩, if_neg (by rw [full]; decide)]

theorem enumerate_declines {bytes : List Byte} (declines : enumAccepted bytes = false ∨ s.wantsAddress bytes = false) :
    s.enumerate id bytes = s := by
  unfold State.enumerate
  refine if_neg fun ⟨accepted, wants⟩ => declines.elim ?_ ?_
  · rw [accepted]; decide
  · rw [wants]; decide

theorem wantsAddress_fresh {bytes : List Byte} (fresh : enumMode bytes = 1) : s.wantsAddress bytes = true := by
  unfold State.wantsAddress
  rw [fresh]
  rfl

theorem wantsAddress_unaddressed {bytes : List Byte} (state : s.node.state = .unaddressed) :
    s.wantsAddress bytes = true := by
  unfold State.wantsAddress
  rw [state]
  exact Bool.or_true _

/-- An ENUMERATE whose address the node takes: `t` is the node with its address. -/
theorem frameEnd_enumTake {t : State} (good : s.receivesGood id 1) (accepted : enumAccepted (s.slot id).bytes = true)
    (legal : (enumNext (s.slot id).bytes).toNat ≤ 62)
    (wants : s.reportGoodFrame.wantsAddress (s.slot id).bytes = true)
    (taken : (s.reportGoodFrame.setReceive .between).takeAddress (enumNext (s.slot id).bytes) = t.setReceive .between)
    (slot : t.slot id = s.slot id) :
    exec (.frameEnd .closed) s = .next (t.sentOn id (withCrc (overwrite (s.slot id).bytes 5
      [enumNext (s.slot id).bytes + 1, BitVec.ofNat 8 (min 62 ((enumTaken (s.slot id).bytes).toNat + 1))]))) := by
  have long := good_length _ good.2.2.1
  rw [frameEnd_enumerate good, enumerate_takes (s := s.reportGoodFrame.setReceive .between) accepted wants legal]
  unfold State.enumTake
  rw [taken, editFrame_sentOn _ _ (by rw [slot]; omega), slot]
  rfl

/-- A measurement begun in ONLINE. -/
theorem beginMeasurement_online (state : s.node.state = .online) :
    s.beginMeasurement =
      s.withLight (if s.setting .lightMode = 0 then s.light.stop else s.light.start (s.setting .lightMode)) := by
  have runs : s.lightRuns = true ↔ s.setting .lightMode ≠ 0 := by
    unfold State.lightRuns
    rw [state]
    exact bne_iff_ne
  unfold State.beginMeasurement
  by_cases off : s.setting .lightMode = 0
  · rw [if_pos off, if_neg (mt runs.mp (not_not.mpr off))]
  · rw [if_neg off, if_pos (runs.mpr off)]

theorem enumerate_givesAnAddress : Claim.EnumerateGivesAnAddress := by
  intro s id good accepted legal sent
  refine ⟨fun state => ?_, fun state fresh => ?_, fun state fresh => ?_⟩
  · refine frameEnd_enumTake good accepted legal (by
      rw [reportGoodFrame_unaddressed state]; exact wantsAddress_unaddressed state) ?_ (by cases id <;> rfl)
    rw [reportGoodFrame_unaddressed state]
    refine (takeAddress_unaddressed (s.setReceive .between) _ state).trans ?_
    exact beginMeasurement_online rfl
  · refine frameEnd_enumTake good accepted legal (wantsAddress_fresh fresh) ?_ (by cases id <;> rfl)
    rw [reportGoodFrame_awake (.inl state), if_pos state]
    exact takeAddress_addressed _ _ (by show s.node.state ≠ _; rw [state]; decide)
  · refine frameEnd_enumTake good accepted legal (wantsAddress_fresh fresh) ?_ (by cases id <;> rfl)
    rw [reportGoodFrame_awake (.inr state), if_neg (by rw [state]; decide)]
    exact takeAddress_addressed _ _ (by show s.node.state ≠ _; rw [state]; decide)

/-- An exhausted ENUMERATE: `t` is the node once it has answered. -/
theorem frameEnd_enumExhausted {t : State} (good : s.receivesGood id 1)
    (accepted : enumAccepted (s.slot id).bytes = true) (full : enumNext (s.slot id).bytes = 63)
    (wants : s.reportGoodFrame.wantsAddress (s.slot id).bytes = true)
    (removed : (if enumMode (s.slot id).bytes = 1 ∧ s.reportGoodFrame.node.state ≠ .unaddressed
      then (s.reportGoodFrame.setReceive .between).becomeUnaddressed else s.reportGoodFrame.setReceive .between) =
        t.setReceive .between)
    (slot : t.slot id = s.slot id) :
    exec (.frameEnd .closed) s = .next (t.sentOn id (withCrc (overwrite (s.slot id).bytes 7 [1]))) := by
  have long := good_length _ good.2.2.1
  rw [frameEnd_enumerate good, enumerate_exhausts (s := s.reportGoodFrame.setReceive .between) accepted wants full]
  unfold State.enumExhausted
  refine congrArg Host.Outcome.next ?_
  rw [← slot, ← editFrame_sentOn 7 [1] (by rw [slot]; omega), ← removed, slot]
  rfl

theorem exhaustedEnumerate_removesTheAddress : Claim.ExhaustedEnumerateRemovesTheAddress := by
  intro s id good accepted full sent
  refine ⟨fun awake fresh => ?_, fun state => ?_⟩
  · refine frameEnd_enumExhausted good accepted full (wantsAddress_fresh fresh) ?_ (by cases id <;> rfl)
    rw [reportGoodFrame_awake awake, State.withNode_node, heldNode_state,
      if_pos ⟨fresh, fun h => by rw [h] at awake; simp at awake⟩]
    rcases awake with state | state
    · rw [if_pos state]
      rfl
    · rw [if_neg (by rw [state]; decide)]
      rfl
  · refine frameEnd_enumExhausted good accepted full (by
      rw [reportGoodFrame_unaddressed state]; exact wantsAddress_unaddressed state) ?_ rfl
    rw [reportGoodFrame_unaddressed state]
    exact if_neg fun h => h.2 state

theorem untakenEnumerates_relayed : Claim.UntakenEnumeratesAreRelayed := by
  intro s id good linked untaken
  have crc := good.2.2.1
  have long := good_length _ crc
  have report : s.reportGoodFrame =
      s.withNode (if s.node.state = .online then { s.node with silence := 0 } else s.node) := by
    cases state : s.node.state with
    | online => rw [reportGoodFrame_awake (.inl state), state]
    | quiescent => rw [reportGoodFrame_awake (.inr state), state]
    | unaddressed => rw [reportGoodFrame_unaddressed state, if_neg (by decide)]; rfl
    | standalone => exact absurd state linked
  have declines : enumAccepted (s.slot id).bytes = false ∨
      s.reportGoodFrame.wantsAddress (s.slot id).bytes = false := untaken.imp_right fun ⟨fill, addressed⟩ => by
    unfold State.wantsAddress
    rw [report, fill, State.withNode_node, heldNode_state, beq_eq_false_iff_ne.mpr addressed]
    rfl
  rw [frameEnd_enumerate good, enumerate_declines (s := s.reportGoodFrame.setReceive .between) declines,
    readyGood_sentOn (by rw [reportGoodFrame_slot]; omega), reportGoodFrame_slot, withCrc_of_good _ crc, report]

/-- Settles O13, by the payload check and the next address. -/
theorem enumerateFramesAreTaken : Obligations.EnumerateFramesAreTaken :=
  ⟨enumerate_givesAnAddress, exhaustedEnumerate_removesTheAddress, untakenEnumerates_relayed⟩

/-! ## COMMAND (R183 to R185) -/

theorem ownsCommand_awake {bytes : List Byte} (awake : s.node.state = .online ∨ s.node.state = .quiescent)
    (ours : s.node.address = some (frameDest bytes) ∨ frameDest bytes = 63) :
    s.reportGoodFrame.ownsCommand bytes = true := by
  unfold State.ownsCommand
  rw [awake_gathers awake, Bool.true_and, reportGoodFrame_awake awake, State.withNode_node, heldNode_address]
  rcases ours with here | all
  · rw [here, beq_self_eq_true, Bool.true_or]
  · rw [show (frameDest bytes == Config.broadcastAddress) = true from beq_iff_eq.mpr all, Bool.or_true]

/-- A COMMAND for this node begins its processing. -/
theorem frameEnd_command {address : Byte} (good : s.receivesGood id 2)
    (awake : s.node.state = .online ∨ s.node.state = .quiescent) (held : s.node.address = some address)
    (ours : frameDest (s.slot id).bytes = address ∨ frameDest (s.slot id).bytes = 63) :
    exec (.frameEnd .closed) s =
      .next ((s.reportGoodFrame.setReceive .between).beginProcessing id (frameDest (s.slot id).bytes == 63) address
        (framePayload (s.slot id).bytes)) := by
  obtain ⟨idle, closes⟩ := good
  have kind := closes.2.2
  have owns : s.reportGoodFrame.ownsCommand (s.slot id).bytes = true :=
    ownsCommand_awake awake (ours.imp_left fun here => by rw [held, here])
  have address_ : (s.reportGoodFrame.setReceive .between).node.address = some address := by
    rw [reportGoodFrame_awake awake]
    exact (heldNode_address s.node).trans held
  rw [frameEnd_good closes (mustWait_idle _ idle)]
  unfold State.handOver
  rw [if_neg fun h => absurd (kind.symm.trans h) (by decide), if_neg fun h => absurd (kind.symm.trans h.1) (by decide),
    if_pos ⟨kind, owns⟩, address_]
  rfl

theorem commandsWithItems_taken : Claim.CommandsWithItemsAreTaken := by
  intro s id address good awake held notAll some_ count broadcast dest
  have ours : frameDest (s.slot id).bytes = address ∨ frameDest (s.slot id).bytes = 63 := by
    cases broadcast
    · exact .inl dest
    · exact .inr dest
  have isBroadcast : (frameDest (s.slot id).bytes == 63) = broadcast := by
    rw [dest]
    cases broadcast
    · exact beq_eq_false_iff_ne.mpr notAll
    · rfl
  have more : ¬((framePayload (s.slot id).bytes).getD 0 0).toNat ≤ 0 := fun none_ =>
    count (BitVec.eq_of_toNat_eq (Nat.le_zero.mp none_))
  rw [frameEnd_command good awake held ours, isBroadcast, reportGoodFrame_awake awake]
  exact congrArg Host.Outcome.next (if_neg (by simpa [Processing.count] using more))

theorem frameBody_append {body crc : List Byte} (two : crc.length = 2) : frameBody (body ++ crc) = body := by
  unfold frameBody
  rw [List.length_append, two, Nat.add_sub_cancel, List.take_left]

/-- A frame of six bytes or more: its header, its payload and its CRC. -/
theorem frame_eq (bytes : List Byte) (long : 6 ≤ bytes.length) :
    bytes = bytes.getD 0 0 :: bytes.getD 1 0 :: bytes.getD 2 0 :: bytes.getD 3 0 ::
      (framePayload bytes ++ frameCrc bytes) ∧
      (framePayload bytes).length = bytes.length - 6 ∧ (frameCrc bytes).length = 2 := by
  refine ⟨?_, by simp [framePayload, frameBody]; omega, by simp [frameCrc]; omega⟩
  match bytes with
  | b0 :: b1 :: b2 :: b3 :: rest =>
    have body : frameBody (b0 :: b1 :: b2 :: b3 :: rest) = b0 :: b1 :: b2 :: b3 :: rest.take (rest.length - 2) := by
      have inBody : (b0 :: b1 :: b2 :: b3 :: rest).length - 2 = rest.length - 2 + 4 := by
        simp only [List.length_cons] at long ⊢; omega
      unfold frameBody
      rw [inBody]
      rfl
    have crc : frameCrc (b0 :: b1 :: b2 :: b3 :: rest) = rest.drop (rest.length - 2) := by
      have inBody : (b0 :: b1 :: b2 :: b3 :: rest).length - 2 = rest.length - 2 + 4 := by
        simp only [List.length_cons] at long ⊢; omega
      unfold frameCrc
      rw [inBody]
      rfl
    unfold framePayload
    rw [body, crc]
    exact congrArg (b0 :: b1 :: b2 :: b3 :: ·) (List.take_append_drop (rest.length - 2) rest).symm

/-- The reply to a COMMAND of which no item is taken. -/
theorem closed_unanswered (p : Processing) (bytes : List Byte) (long : 6 ≤ bytes.length)
    (request : p.request = framePayload bytes) (first : p.reply = 1) (none_ : p.answered = 0)
    (plain : p.truncated = false ∧ p.resetStop = false) :
    p.closed bytes =
      ([3, p.address, bytes.getD 2 0, bytes.getD 3 0] ++ List.replicate (bytes.length - 6) 0) ++ frameCrc bytes := by
  obtain ⟨split, payload, _⟩ := frame_eq bytes long
  rw [← payload]
  by_cases empty : framePayload bytes = []
  · rw [empty, List.nil_append] at split
    have closed := closed_empty p (bytes.getD 0 0) (bytes.getD 1 0) (bytes.getD 2 0) (bytes.getD 3 0) (frameCrc bytes)
      (request.trans empty)
    rw [← split, plain.1, plain.2] at closed
    rw [closed, empty]
    rfl
  · have some_ : 1 ≤ (framePayload bytes).length := List.length_pos_iff.mpr empty
    have closed := closed_eq p (bytes.getD 0 0) (bytes.getD 1 0) (bytes.getD 2 0) (bytes.getD 3 0) (framePayload bytes)
      (frameCrc bytes) (by rw [request]) (by omega) (by omega)
    rw [← split, plain.1, plain.2, first, none_] at closed
    rw [closed]
    obtain ⟨n, more⟩ : ∃ n, (framePayload bytes).length = n + 1 := ⟨_, (Nat.sub_add_cancel some_).symm⟩
    rw [more]
    rfl

theorem withEngine_self {e : Engine} (same : s.engine = e) : s.withEngine e = s := by
  rw [← same]
  rfl

theorem sentOn_engine (bytes : List Byte) : (s.sentOn id bytes).engine = s.engine := by
  cases id <;> rfl

theorem commandsWithoutItems_answeredAtOnce : Claim.CommandsWithoutItemsAreAnsweredAtOnce := by
  intro s id address good awake held notAll bytes reported none_
  have long : 6 ≤ bytes.length := good_length _ good.2.2.1
  have done : ((framePayload bytes).getD 0 0).toNat ≤ 0 := by
    rcases none_ with empty | zero
    · rw [empty]; rfl
    · rw [zero]; rfl
  have same : reported = s.reportGoodFrame := (reportGoodFrame_awake awake).symm
  rw [same]
  have idle : s.reportGoodFrame.engine = .idle := by rw [reportGoodFrame_frame]; exact good.1
  have slot : s.reportGoodFrame.slot id = s.slot id := reportGoodFrame_slot
  refine ⟨fun all => ?_, fun here => ?_⟩
  · rw [frameEnd_command good awake held (.inr all), all]
    refine congrArg Host.Outcome.next ((if_pos (by simpa [Processing.count] using done)).trans ?_)
    show ((s.reportGoodFrame.setReceive .between).readyGood id).withEngine .idle = _
    rw [readyGood_sentOn (by rw [slot]; exact (by decide : 2 ≤ 6).trans long), slot, withCrc_of_good _ good.2.2.1,
      withEngine_self ((sentOn_engine _).trans idle)]
  · have isAddressed : (frameDest bytes == 63) = false := beq_eq_false_iff_ne.mpr (here ▸ notAll)
    rw [frameEnd_command good awake held (.inl here), isAddressed]
    refine congrArg Host.Outcome.next ((if_pos (by simpa [Processing.count] using done)).trans ?_)
    let p : Processing := ⟨id, false, address, framePayload bytes, 1, 0, 1, false, false⟩
    have whole : (s.reportGoodFrame.setReceive .between).putSlot id
        { (s.reportGoodFrame.setReceive .between).slot id with bytes := bytes } =
          s.reportGoodFrame.setReceive .between := by
      have bytes_ : bytes = ((s.reportGoodFrame.setReceive .between).slot id).bytes :=
        (congrArg Slot.bytes slot).symm
      rw [bytes_]
      exact putSlot_slot _ id
    have ends := endProcessing_addressed (s.reportGoodFrame.setReceive .between) p id bytes rfl rfl (by omega)
    rw [whole, closed_unanswered p bytes long rfl rfl rfl ⟨rfl, rfl⟩, withCrc_congr (b := ([3, address, bytes.getD 2 0,
      bytes.getD 3 0] ++ List.replicate (bytes.length - 6) 0) ++ [0, 0]) (by
        rw [frameBody_append (frame_eq bytes long).2.2, frameBody_append rfl])] at ends
    refine ends.trans ?_
    refine Eq.trans ?_ (withEngine_self (s := s.reportGoodFrame.sentOn id _) ((sentOn_engine _).trans idle))
    cases id <;> rfl

theorem ownedFrames_wait : Claim.OwnedFramesWaitForTheProcessing := by
  intro s id kind good busy owned
  obtain ⟨⟨relays, storing⟩, crc, rfl⟩ := good
  have waits : s.mustWait (s.slot id).bytes = true := by
    unfold State.mustWait State.engineBusy
    rw [bne_iff_ne.mpr busy, Bool.true_and]
    rcases owned with enumerate | ⟨command, awake, ours⟩
    · rw [enumerate]; rfl
    · rw [command, ownsCommand_awake awake ours]; rfl
  rw [exec_frameEnd _ relays, frameEnd_storing _ storing]
  refine congrArg Host.Outcome.next ?_
  simp only [State.endStored]
  rw [if_pos crc, if_pos waits]

/-- Settles O15, by whether the payload holds items. -/
theorem commandsBeginProcessing : Obligations.CommandsBeginProcessing :=
  ⟨commandsWithItems_taken, commandsWithoutItems_answeredAtOnce, ownedFrames_wait⟩

end Sys2Proof.Machine
end

section
/-! Gather passes: aging and going back (R107), and filling the empty slots of the frame (R106, R108, R109). -/

namespace Sys2Proof.Machine

/-! ## Aging and going back (R107) -/

/-- The head has waited its passes. -/
theorem goBackDue_iff (q : EventQueue) (resendAfter : Nat) :
    q.ageAll.goBackDue resendAfter = true ↔
      ∃ head rest age, q.entries = head :: rest ∧ head.delivery = .sent age ∧ resendAfter ≤ min 15 (age + 1) := by
  obtain ⟨entries, nextSeq, loss⟩ := q
  cases entries with
  | nil => exact ⟨nofun, nofun⟩
  | cons head rest =>
    obtain ⟨seq, event, argument, time, delivery⟩ := head
    cases delivery with
    | unsent =>
      refine ⟨nofun, fun ⟨_, _, _, same, sent, _⟩ => ?_⟩
      cases same
      cases sent
    | sent age =>
      refine (decide_eq_true_iff (p := resendAfter ≤ min 15 (age + 1))).trans ⟨fun due => ⟨_, _, age, rfl, rfl, due⟩, ?_⟩
      rintro ⟨_, _, _, same, sent, due⟩
      cases same
      cases sent
      exact due

theorem age_eq (e : Entry) :
    e.age = { e with delivery := match e.delivery with | .unsent => .unsent | .sent age => .sent (min 15 (age + 1)) } := by
  obtain ⟨seq, event, argument, time, delivery⟩ := e
  cases delivery <;> rfl

theorem unsend_age (e : Entry) : e.age.unsend = e.unsend := by
  rw [age_eq]
  rfl

theorem entries_ageOrGoBack : Claim.EntriesAgeOrGoBack := by
  intro q resendAfter due
  have isDue := goBackDue_iff q resendAfter
  refine ⟨fun early => ?_, fun late => ?_⟩
  · refine (if_neg (mt isDue.mp early)).trans ?_
    exact congrArg (EventQueue.mk · q.nextSeq q.pendingLoss) (List.map_congr_left fun e _ => age_eq e)
  · refine (if_pos (isDue.mpr late)).trans ?_
    refine congrArg (EventQueue.mk · q.nextSeq q.pendingLoss) ((List.map_map ..).trans ?_)
    exact List.map_congr_left fun e _ => unsend_age e

/-! ## Empty slots and unsent entries (R108) -/

/-- The empty slots among the first `j` of a frame. -/
def emptySlots (bytes : List Byte) (at_ j : Nat) : Nat :=
  (List.range j).countP fun i => bytes.getD (at_ + 6 * i) 0 == 0

theorem emptySlots_succ (bytes : List Byte) (at_ j : Nat) :
    emptySlots bytes at_ (j + 1) = emptySlots bytes (at_ + 6) j + (if bytes.getD at_ 0 = 0 then 1 else 0) := by
  unfold emptySlots
  rw [List.range_succ_eq_map, List.countP_cons, List.countP_map]
  congr 1
  · refine List.countP_congr fun i _ => ?_
    rw [Function.comp, show at_ + 6 * (i + 1) = at_ + 6 + 6 * i by omega]
  · simp

theorem getD_overwrite_behind (bytes new : List Byte) (at_ k : Nat) (behind : at_ + new.length ≤ k) :
    (overwrite bytes at_ new).getD k 0 = bytes.getD k 0 := by
  rw [List.getD_eq_getElem?_getD, List.getD_eq_getElem?_getD, getElem?_overwrite, if_neg (by omega)]

/-- Filling a slot changes no byte behind it. -/
theorem emptySlots_overwrite (bytes new : List Byte) (at_ from_ j : Nat) (behind : at_ + new.length ≤ from_) :
    emptySlots (overwrite bytes at_ new) from_ j = emptySlots bytes from_ j := by
  refine List.countP_congr fun i _ => ?_
  rw [getD_overwrite_behind _ _ _ _ (by omega)]

/-- The UNSENT entries, in the order of the queue. -/
def unsentOf (l : List Entry) : List Entry := l.filter fun e => !e.isSent

theorem unsentOf_length (l : List Entry) : (unsentOf l).length = l.countP fun e => !e.isSent :=
  List.countP_eq_length_filter.symm

theorem atSendPoint_eq (q : EventQueue) : q.atSendPoint = (unsentOf q.entries).head? := List.head?_filter.symm

theorem unsentOf_mark (l : List Entry) : unsentOf (markFirstUnsent l) = (unsentOf l).tail := by
  unfold unsentOf
  induction l with
  | nil => rfl
  | cons e rest ih =>
    unfold markFirstUnsent
    by_cases sent : e.isSent = true
    · rw [if_pos sent, List.filter_cons_of_neg (by simp [sent]), List.filter_cons_of_neg (by simp [sent]), ih]
    · rw [if_neg sent, List.filter_cons_of_neg (by simp [Entry.isSent]), List.filter_cons_of_pos (by simp [sent]),
        List.tail_cons]

/-- The entries a pass writes: the smallest of the quota, the empty slots and the UNSENT entries. -/
def writtenCount (slots at_ quota : Nat) (bytes : List Byte) (q : EventQueue) : Nat :=
  min quota (min (emptySlots bytes at_ slots) (unsentOf q.entries).length)

/-- Filling, slot by slot: nothing is left to write, the front slot takes the first UNSENT entry, or it is passed. -/
theorem fillSlots_induct {address : Byte} {P : Nat → Nat → Nat → List Byte → EventQueue → List Byte × EventQueue → Prop}
    (stops : ∀ slots at_ quota bytes q, writtenCount slots at_ quota bytes q = 0 → P slots at_ quota bytes q (bytes, q))
    (fills : ∀ slots at_ quota bytes q e rest r, bytes.getD at_ 0 = 0 → unsentOf q.entries = e :: rest →
      P slots (at_ + 6) quota (overwrite bytes at_ (gatherSlot address e))
        { q with entries := markFirstUnsent q.entries } r →
      P (slots + 1) at_ (quota + 1) bytes q r)
    (passes : ∀ slots at_ quota bytes q r, bytes.getD at_ 0 ≠ 0 → P slots (at_ + 6) quota bytes q r →
      P (slots + 1) at_ quota bytes q r)
    (slots at_ quota : Nat) (bytes : List Byte) (q : EventQueue) :
    P slots at_ quota bytes q (fillSlots address slots at_ quota bytes q) := by
  induction slots generalizing at_ quota bytes q with
  | zero => exact stops _ _ _ _ _ (by simp [writtenCount, emptySlots])
  | succ slots ih =>
    unfold fillSlots
    cases quota with
    | zero =>
      rw [if_pos rfl]
      exact stops _ _ _ _ _ (Nat.zero_min _)
    | succ quota =>
      rw [if_neg (Nat.succ_ne_zero _), atSendPoint_eq]
      cases unsent : unsentOf q.entries with
      | nil => exact stops _ _ _ _ _ (by simp [writtenCount, unsent])
      | cons e rest =>
        simp only [List.head?_cons]
        split
        · next empty => exact fills _ _ _ _ _ e rest _ empty unsent (ih ..)
        · next full => exact passes _ _ _ _ _ _ full (ih ..)

theorem gatherSlot_length (address : Byte) (e : Entry) : (gatherSlot address e).length = 6 := rfl

/-- A filled slot lowers each of the three counts by one. -/
theorem writtenCount_fills {slots at_ quota : Nat} {bytes : List Byte} {q : EventQueue} {e : Entry} {rest : List Entry}
    (address : Byte) (empty : bytes.getD at_ 0 = 0) (unsent : unsentOf q.entries = e :: rest) :
    writtenCount (slots + 1) at_ (quota + 1) bytes q =
      writtenCount slots (at_ + 6) quota (overwrite bytes at_ (gatherSlot address e))
        { q with entries := markFirstUnsent q.entries } + 1 := by
  unfold writtenCount
  rw [emptySlots_succ, if_pos empty, emptySlots_overwrite _ _ _ (at_ + 6) _ (Nat.le_refl _), unsentOf_mark, unsent]
  simp only [List.length_cons, List.tail_cons]
  omega

theorem writtenCount_passes {slots at_ quota : Nat} {bytes : List Byte} {q : EventQueue} (full : bytes.getD at_ 0 ≠ 0) :
    writtenCount (slots + 1) at_ quota bytes q = writtenCount slots (at_ + 6) quota bytes q := by
  unfold writtenCount
  rw [emptySlots_succ, if_neg full, Nat.add_zero]

/-! ## The queue after a pass -/

theorem filling_writesTheSmallestCount : Claim.FillingWritesTheSmallestCount := by
  intro address slots at_ quota bytes q _ sent empty unsent filled
  have left : filled.2.entries.length = q.entries.length ∧
      (filled.2.entries.countP fun e => !e.isSent) =
        (q.entries.countP fun e => !e.isSent) - writtenCount slots at_ quota bytes q ∧
      (sentFirst q.entries → sentFirst filled.2.entries) ∧
      filled.2.nextSeq = q.nextSeq ∧ filled.2.pendingLoss = q.pendingLoss := by
    refine fillSlots_induct (P := fun slots at_ quota bytes q r => r.2.entries.length = q.entries.length ∧
      (r.2.entries.countP fun e => !e.isSent) =
        (q.entries.countP fun e => !e.isSent) - writtenCount slots at_ quota bytes q ∧
      (sentFirst q.entries → sentFirst r.2.entries) ∧ r.2.nextSeq = q.nextSeq ∧ r.2.pendingLoss = q.pendingLoss)
      ?_ ?_ ?_ slots at_ quota bytes q
    · intro slots at_ quota bytes q nothing
      rw [nothing]
      exact ⟨rfl, rfl, id, rfl, rfl⟩
    · intro slots at_ quota bytes q e rest r empty unsent ⟨length, count, order, seq, loss⟩
      refine ⟨length.trans (markFirstUnsent_length _), ?_, fun h => order (markFirstUnsent_sentFirst _ h), seq, loss⟩
      rw [count, markFirstUnsent_unsent, writtenCount_fills address empty unsent]
      omega
    · intro slots at_ quota bytes q r full kept
      rw [writtenCount_passes full]
      exact kept
  obtain ⟨length, count, order, seq, loss⟩ := left
  refine ⟨fillSlots_length .., length, count.trans ?_, order sent, seq, loss⟩
  unfold writtenCount
  rw [unsentOf_length]
  rfl

/-- Marking the first UNSENT entry, entry by entry. -/
theorem markFirstUnsent_getElem? (l : List Entry) (i : Nat) :
    (markFirstUnsent l)[i]? = l[i]?.map fun e =>
      if e.isSent = false ∧ ((l.take i).countP fun e' => !e'.isSent) < 1 then { e with delivery := .sent 0 } else e := by
  induction l generalizing i with
  | nil => rfl
  | cons x rest ih =>
    unfold markFirstUnsent
    cases sent : x.isSent with
    | true =>
      cases i with
      | zero => simp [sent]
      | succ i => simp [ih, sent]
    | false =>
      cases i with
      | zero => simp [sent]
      | succ i => simp [sent]

theorem take_markFirstUnsent (l : List Entry) (i : Nat) : (markFirstUnsent l).take i = markFirstUnsent (l.take i) := by
  induction l generalizing i with
  | nil => simp [markFirstUnsent]
  | cons x rest ih =>
    cases i with
    | zero => rfl
    | succ i =>
      simp only [List.take_succ_cons, markFirstUnsent]
      split
      · rw [List.take_succ_cons, ih]
      · rw [List.take_succ_cons]

/-- Marking the first UNSENT entry, and then `w` more, marks the first `w + 1`: here for an entry behind `c` UNSENT ones. -/
theorem mark_twice (e : Entry) (c w : Nat) :
    (if (if e.isSent = false ∧ c < 1 then { e with delivery := .sent 0 } else e).isSent = false ∧ c - 1 < w
        then { (if e.isSent = false ∧ c < 1 then { e with delivery := .sent 0 } else e) with delivery := .sent 0 }
        else if e.isSent = false ∧ c < 1 then { e with delivery := .sent 0 } else e) =
      if e.isSent = false ∧ c < w + 1 then { e with delivery := .sent 0 } else e := by
  by_cases candidate : e.isSent = false
  · by_cases first : c < 1
    · rw [if_pos (show e.isSent = false ∧ c < 1 from ⟨candidate, first⟩),
        if_pos (show e.isSent = false ∧ c < w + 1 from ⟨candidate, by omega⟩)]
      exact if_neg fun h => Bool.noConfusion h.1
    · rw [if_neg (show ¬(e.isSent = false ∧ c < 1) from fun h => first h.2)]
      exact if_congr (and_congr_right fun _ => by omega) rfl rfl
  · rw [if_neg (show ¬(e.isSent = false ∧ c < 1) from fun h => candidate h.1), if_neg fun h => candidate h.1,
      if_neg fun h => candidate h.1]

/-- The entries after a pass: the first UNSENT ones are SENT, as many as were written. -/
theorem fillSlots_entries (address : Byte) (slots at_ quota : Nat) (bytes : List Byte) (q : EventQueue) (i : Nat) :
    (fillSlots address slots at_ quota bytes q).2.entries[i]? = q.entries[i]?.map fun e =>
      if e.isSent = false ∧ ((q.entries.take i).countP fun e' => !e'.isSent) < writtenCount slots at_ quota bytes q
        then { e with delivery := .sent 0 } else e := by
  refine fillSlots_induct (P := fun slots at_ quota bytes q r => r.2.entries[i]? = q.entries[i]?.map fun e =>
    if e.isSent = false ∧ ((q.entries.take i).countP fun e' => !e'.isSent) < writtenCount slots at_ quota bytes q
      then { e with delivery := .sent 0 } else e) ?_ ?_ ?_ slots at_ quota bytes q
  · intro slots at_ quota bytes q nothing
    simp [nothing]
  · intro slots at_ quota bytes q e rest r empty unsent marked
    rw [marked, markFirstUnsent_getElem?, take_markFirstUnsent, markFirstUnsent_unsent,
      writtenCount_fills address empty unsent, Option.map_map]
    refine Option.map_congr fun x _ => ?_
    rw [Function.comp]
    exact mark_twice x _ _
  · intro slots at_ quota bytes q r full marked
    rw [writtenCount_passes full]
    exact marked

/-! ## The frame after a pass (R109) -/

/-- The six bytes of a slot. -/
def slotBytes (bytes : List Byte) (k : Nat) : List Byte := (bytes.drop k).take 6

theorem slotBytes_of_take {a b : List Byte} {k : Nat} (same : a.take (k + 6) = b.take (k + 6)) :
    slotBytes a k = slotBytes b k := by
  have window : ∀ l : List Byte, slotBytes l k = (l.take (k + 6)).drop k := fun l => by
    rw [List.drop_take, Nat.add_sub_cancel_left]
    rfl
  rw [window, window, same]

theorem slotBytes_of_drop {a b : List Byte} {n k : Nat} (same : a.drop n = b.drop n) (behind : n ≤ k) :
    slotBytes a k = slotBytes b k := by
  obtain ⟨m, rfl⟩ := Nat.exists_eq_add_of_le behind
  unfold slotBytes
  rw [← List.drop_drop, same, List.drop_drop]

/-- A slot filled, and the bytes before and behind it. -/
theorem overwrite_slot (bytes new : List Byte) (at_ : Nat) (six : new.length = 6) (fits : at_ + 6 ≤ bytes.length) :
    (overwrite bytes at_ new).take at_ = bytes.take at_ ∧ slotBytes (overwrite bytes at_ new) at_ = new ∧
      (overwrite bytes at_ new).drop (at_ + 6) = bytes.drop (at_ + 6) := by
  have front : (bytes.take at_).length = at_ := by rw [List.length_take]; omega
  rw [overwrite_eq _ _ _ (by omega), six]
  refine ⟨?_, ?_, ?_⟩
  · rw [List.append_assoc, List.take_left' front]
  · unfold slotBytes
    rw [List.append_assoc, List.drop_left' front, List.take_left' six]
  · rw [List.drop_left' (by rw [List.length_append, front, six])]

/-- What a pass makes of a frame: `written` slots in order take the UNSENT entries in order, and every other byte stays. -/
structure Filled (address : Byte) (slots at_ quota : Nat) (bytes : List Byte) (q : EventQueue) (after : List Byte) :
    Prop where
  before : after.take at_ = bytes.take at_
  behind : after.drop (at_ + 6 * slots) = bytes.drop (at_ + 6 * slots)
  writes : ∀ (j : Nat) (e : Entry), j < slots → bytes.getD (at_ + 6 * j) 0 = 0 →
    emptySlots bytes at_ j < writtenCount slots at_ quota bytes q →
    (unsentOf q.entries)[emptySlots bytes at_ j]? = some e → slotBytes after (at_ + 6 * j) = gatherSlot address e
  keeps : ∀ j < slots, bytes.getD (at_ + 6 * j) 0 ≠ 0 ∨ writtenCount slots at_ quota bytes q ≤ emptySlots bytes at_ j →
    slotBytes after (at_ + 6 * j) = slotBytes bytes (at_ + 6 * j)

theorem filled_stops {address : Byte} {slots at_ quota : Nat} {bytes : List Byte} {q : EventQueue}
    (nothing : writtenCount slots at_ quota bytes q = 0) : Filled address slots at_ quota bytes q bytes where
  before := rfl
  behind := rfl
  writes := fun j e _ _ few _ => by omega
  keeps := fun _ _ _ => rfl

theorem filled_passes {address : Byte} {slots at_ quota : Nat} {bytes after : List Byte} {q : EventQueue}
    (full : bytes.getD at_ 0 ≠ 0) (rest : Filled address slots (at_ + 6) quota bytes q after) :
    Filled address (slots + 1) at_ quota bytes q after := by
  have next : ∀ j, at_ + 6 * (j + 1) = at_ + 6 + 6 * j := fun j => by omega
  have count : ∀ j, emptySlots bytes at_ (j + 1) = emptySlots bytes (at_ + 6) j := fun j => by
    rw [emptySlots_succ, if_neg full, Nat.add_zero]
  refine ⟨?_, ?_, fun j e inside empty few found => ?_, fun j inside stays => ?_⟩
  · simpa [List.take_take] using congrArg (List.take at_) rest.before
  · rw [next]; exact rest.behind
  · cases j with
    | zero => exact absurd empty full
    | succ j =>
      rw [next] at empty ⊢
      rw [count] at few found
      rw [writtenCount_passes full] at few
      exact rest.writes j e (by omega) empty few found
  · cases j with
    | zero => exact slotBytes_of_take rest.before
    | succ j =>
      rw [next] at stays ⊢
      rw [count, writtenCount_passes full] at stays
      exact rest.keeps j (by omega) stays

theorem filled_fills {address : Byte} {slots at_ quota : Nat} {bytes after : List Byte} {q : EventQueue} {e : Entry}
    {others : List Entry} (empty : bytes.getD at_ 0 = 0) (unsent : unsentOf q.entries = e :: others)
    (fits : at_ + 6 ≤ bytes.length)
    (rest : Filled address slots (at_ + 6) quota (overwrite bytes at_ (gatherSlot address e))
      { q with entries := markFirstUnsent q.entries } after) :
    Filled address (slots + 1) at_ (quota + 1) bytes q after := by
  obtain ⟨same, written, behind⟩ := overwrite_slot bytes (gatherSlot address e) at_ rfl fits
  have next : ∀ j, at_ + 6 * (j + 1) = at_ + 6 + 6 * j := fun j => by omega
  have count : ∀ j, emptySlots bytes at_ (j + 1) =
      emptySlots (overwrite bytes at_ (gatherSlot address e)) (at_ + 6) j + 1 := fun j => by
    rw [emptySlots_succ, if_pos empty, emptySlots_overwrite _ _ _ (at_ + 6) _ (Nat.le_refl _)]
  have byte : ∀ j, (overwrite bytes at_ (gatherSlot address e)).getD (at_ + 6 + 6 * j) 0 =
      bytes.getD (at_ + 6 + 6 * j) 0 := fun j => getD_overwrite_behind _ _ _ _ (by rw [gatherSlot_length]; omega)
  refine ⟨?_, ?_, fun j x inside zero few found => ?_, fun j inside stays => ?_⟩
  · rw [← same]
    simpa [List.take_take] using congrArg (List.take at_) rest.before
  · rw [next, rest.behind]
    rw [show at_ + 6 + 6 * slots = 6 * slots + (at_ + 6) by omega, Nat.add_comm, ← List.drop_drop, behind, List.drop_drop]
  · cases j with
    | zero =>
      have front : e = x := by simpa [emptySlots, unsent] using found
      rw [← front, ← written]
      exact slotBytes_of_take rest.before
    | succ j =>
      rw [next] at zero ⊢
      rw [count, unsent, List.getElem?_cons_succ] at found
      rw [count, writtenCount_fills address empty unsent] at few
      refine rest.writes j x (by omega) ((byte j).trans zero) (by omega) ?_
      rw [unsentOf_mark, unsent]
      exact found
  · cases j with
    | zero =>
      rcases stays with full | few
      · exact absurd empty full
      · rw [writtenCount_fills address empty unsent] at few
        exact absurd few (by simp [emptySlots])
    | succ j =>
      rw [next] at stays ⊢
      rw [count, writtenCount_fills address empty unsent] at stays
      rw [rest.keeps j (by omega) (stays.imp (fun h => by rw [byte]; exact h) fun h => by omega)]
      exact slotBytes_of_drop behind (by omega)

theorem fillSlots_filled (address : Byte) (slots at_ quota : Nat) (bytes : List Byte) (q : EventQueue)
    (fits : at_ + 6 * slots ≤ bytes.length) :
    Filled address slots at_ quota bytes q (fillSlots address slots at_ quota bytes q).1 := by
  refine fillSlots_induct (P := fun slots at_ quota bytes q r => at_ + 6 * slots ≤ bytes.length →
    Filled address slots at_ quota bytes q r.1) ?_ ?_ ?_ slots at_ quota bytes q fits
  · exact fun slots at_ quota bytes q nothing _ => filled_stops nothing
  · exact fun slots at_ quota bytes q e rest r empty unsent ih fits =>
      filled_fills empty unsent (by omega) (ih (by rw [overwrite_length]; omega))
  · exact fun slots at_ quota bytes q r full ih fits => filled_passes full (ih (by omega))

theorem hiByte_ofNat (h : Half) : hiByte h = BitVec.ofNat 8 (h.toNat / 256) := by
  unfold hiByte
  apply BitVec.eq_of_toNat_eq
  simp [BitVec.extractLsb'_toNat, Nat.shiftRight_eq_div_pow]

theorem loByte_ofNat (h : Half) : loByte h = BitVec.ofNat 8 h.toNat := by
  unfold loByte
  apply BitVec.eq_of_toNat_eq
  simp [BitVec.extractLsb'_toNat]

theorem filledSlots_carryTheEntries : Claim.FilledSlotsCarryTheEntries := by
  intro address slots at_ quota bytes q fits _ before unsent written filled
  obtain ⟨front, behind, writes, keeps⟩ := fillSlots_filled address slots at_ quota bytes q fits
  refine ⟨fun j e inside empty few found => ?_, keeps, front, behind, fillSlots_entries address slots at_ quota bytes q⟩
  refine (writes j e inside empty few found).trans ?_
  unfold gatherSlot
  rw [hiByte_ofNat, loByte_ofNat]
  cases e.kind <;> rfl

/-! ## The pass (R106) -/

theorem gatherAccepted_iff (bytes : List Byte) (long : 6 ≤ bytes.length) :
    gatherAccepted bytes = true ↔
      1 ≤ gatherCount bytes ∧ gatherCount bytes ≤ 41 ∧ 1 + 6 * gatherCount bytes ≤ bytes.length - 6 := by
  unfold gatherAccepted
  rw [(frame_eq bytes long).2.1]
  simp only [Bool.and_eq_true, decide_eq_true_eq]
  omega

theorem gatherPass_agesAndFills : Claim.GatherPassAgesAndFills := by
  intro s id good awake bytes count accepted held filled
  have long : 6 ≤ bytes.length := good_length _ good.2.1
  have isAccepted : gatherAccepted bytes = true ↔ accepted := gatherAccepted_iff bytes long
  have report : s.reportGoodFrame = held := reportGoodFrame_awake awake
  have slot : held.slot id = s.slot id := by rw [← report]; exact reportGoodFrame_slot
  have kind := good.2.2
  have handed : exec (.frameEnd .closed) s =
      .next (((held.setReceive .between).gatherPass id bytes).readyGood id) := by
    rw [frameEnd_good good (mustWait_unowned (by rw [kind]; decide) fun h => absurd (kind.symm.trans h) (by decide)), report]
    unfold State.handOver
    rw [if_neg fun h => absurd (kind.symm.trans h) (by decide), if_pos ⟨kind, report ▸ awake_gathers awake⟩]
  refine ⟨fun refused => ?_, fun passes => ?_⟩
  · rw [handed]
    unfold State.gatherPass
    rw [if_neg (mt isAccepted.mp refused), readyGood_sentOn (by rw [slot]; exact (by decide : 2 ≤ 6).trans long), slot,
      withCrc_of_good _ good.2.1]
  · rw [handed]
    have address : held.node.address = s.node.address := heldNode_address s.node
    have fill : (held.setReceive .between).gatherFill bytes = filled := by
      unfold State.gatherFill
      rw [show (held.setReceive .between).node.address = s.node.address from address]
      rfl
    unfold State.gatherPass
    rw [if_pos (isAccepted.mpr passes), fill]
    have sent := putSlot_sentOn (s := held.withQueue filled.2) (id := id) filled.1
      (by rw [fillSlots_length]; exact (by decide : 2 ≤ 6).trans long)
    exact congrArg Host.Outcome.next sent

/-- Settles O14: the pass, and what its two parts do to the queue and to the frame. -/
theorem gatherPassesAgeAndFill : Obligations.GatherPassesAgeAndFill :=
  ⟨gatherPass_agesAndFills, entries_ageOrGoBack, filledSlots_carryTheEntries, filling_writesTheSmallestCount⟩

end Sys2Proof.Machine
end

section
/-! The decoder and the encoder of request items (R188, R199, section 12.3). -/

namespace Sys2Proof.Machine

/-! ## What each form reads -/

theorem noParams_some {c d : Instr} {params : List Byte} (read : noParams c params = some d) : params = [] ∧ c = d := by
  match params with
  | [] => exact ⟨rfl, Option.some.inj read⟩

theorem oneParam_some {f : Byte → Instr} {d : Instr} {params : List Byte} (read : oneParam f params = some d) :
    ∃ p, params = [p] ∧ f p = d := by
  match params with
  | [p] => exact ⟨p, rfl, Option.some.inj read⟩

theorem setParam_some {f : BitVec 7 → Instr} {d : Instr} {params : List Byte} (read : setParam f params = some d) :
    ∃ set : BitVec 7, params = [set.setWidth 8] ∧ f set = d := by
  match params with
  | [p] =>
    simp only [setParam, Option.ite_none_left_eq_some, Bool.not_eq_true] at read
    obtain ⟨reserved, same⟩ := read
    exact ⟨p.extractLsb' 0 7, congrArg (fun b => [b]) (lowBits_setByte p reserved).symm, Option.some.inj same⟩

theorem setParam_setWidth (f : BitVec 7 → Instr) (set : BitVec 7) : setParam f [set.setWidth 8] = some (f set) := by
  simp only [setParam]
  rw [setByte_reserved, setByte_low]
  rfl

theorem flagByte_of_masked : ∀ p : Byte, p &&& 0xFE = 0 → (if p.getLsbD 0 then 1 else 0) = p := by decide

/-! ## What is written is read -/

theorem writtenRequests_read : Claim.WrittenRequestsAreRead := by
  intro c code params formed item
  cases c <;> cases item
  case readStatus clear =>
    refine ⟨?_, Nat.le_of_ble_eq_true rfl⟩
    rw [requestOf_readStatus]
    cases clear <;> rfl
  case settingRead first count => exact ⟨by rw [requestOf_settingRead]; rfl, Nat.le_of_ble_eq_true rfl⟩
  case settingWrite pairs =>
    simp only [Instr.wellFormed, Bool.and_eq_true, decide_eq_true_eq] at formed
    refine ⟨?_, by rw [bytesOfPairs_length]; omega⟩
    rw [requestOf_settingWrite]
    match pairs with
    | [] => exact absurd formed.1 (by decide)
    | (id, value) :: rest => exact congrArg (Option.map Instr.settingWrite) (pairsOf_bytesOfPairs ((id, value) :: rest))
  case setTime time =>
    refine ⟨?_, Nat.le_of_ble_eq_true rfl⟩
    rw [requestOf_setTime]
    exact congrArg (fun t => some (Instr.setTime t)) (joinBytes_hiByte_loByte time)
  case quiesce => exact ⟨by rw [requestOf_quiesce]; rfl, by decide⟩
  case resume => exact ⟨by rw [requestOf_resume]; rfl, by decide⟩
  case nodeReset scope => exact ⟨by rw [requestOf_nodeReset]; rfl, Nat.le_of_ble_eq_true rfl⟩
  case writeCells first records =>
    simp only [Instr.wellFormed, Bool.and_eq_true, decide_eq_true_eq] at formed
    refine ⟨?_, by rw [List.length_cons]; omega⟩
    rw [requestOf_writeCells]
    exact if_pos formed.2
  case fillCells first count stride record =>
    refine ⟨?_, Nat.le_of_ble_eq_true rfl⟩
    rw [requestOf_fillCells]
    exact if_pos formed
  case readCells plane first count option => exact ⟨by rw [requestOf_readCells]; rfl, Nat.le_of_ble_eq_true rfl⟩
  case commit tag => exact ⟨by rw [requestOf_commit]; rfl, Nat.le_of_ble_eq_true rfl⟩
  case tableLoad table first entries =>
    simp only [Instr.wellFormed, decide_eq_true_eq] at formed
    refine ⟨?_, by simp only [List.length_cons]; omega⟩
    rw [requestOf_tableLoad]
    exact congrArg (fun t => some (Instr.tableLoad table t entries)) (joinBytes_hiByte_loByte first)
  case tableRead table copy first count =>
    refine ⟨?_, Nat.le_of_ble_eq_true rfl⟩
    rw [requestOf_tableRead]
    exact congrArg (fun t => some (Instr.tableRead table copy t count)) (joinBytes_hiByte_loByte first)
  case tableActivate set =>
    exact ⟨by rw [requestOf_tableActivate]; exact setParam_setWidth _ set, Nat.le_of_ble_eq_true rfl⟩
  case tableAbandon set =>
    exact ⟨by rw [requestOf_tableAbandon]; exact setParam_setWidth _ set, Nat.le_of_ble_eq_true rfl⟩
  case ackEvents seq => exact ⟨by rw [requestOf_ackEvents]; rfl, Nat.le_of_ble_eq_true rfl⟩
  case toneStart pattern => exact ⟨by rw [requestOf_toneStart]; rfl, Nat.le_of_ble_eq_true rfl⟩
  case toneStop => exact ⟨by rw [requestOf_toneStop]; rfl, by decide⟩

/-! ## What is read is what was written -/

/-- The codes of the 18 requests. -/
def requestCodes : List Byte :=
  [0x01, 0x02, 0x03, 0x04, 0x10, 0x11, 0x12, 0x20, 0x21, 0x22, 0x23, 0x30, 0x31, 0x32, 0x33, 0x40, 0x41, 0x42]

theorem requestOf_unknown {code : Byte} (params : List Byte) (unknown : code ∉ requestCodes) :
    requestOf code params = none := by
  unfold requestCodes at unknown
  simp only [List.mem_cons, List.not_mem_nil, or_false, not_or] at unknown
  obtain ⟨h01, h02, h03, h04, h10, h11, h12, h20, h21, h22, h23, h30, h31, h32, h33, h40, h41, h42⟩ := unknown
  unfold requestOf
  rw [if_neg h01, if_neg h02, if_neg h03, if_neg h04, if_neg h10, if_neg h11, if_neg h12, if_neg h20, if_neg h21,
    if_neg h22, if_neg h23, if_neg h30, if_neg h31, if_neg h32, if_neg h33, if_neg h40, if_neg h41, if_neg h42]

theorem requestOf_code {c : Instr} {code : Byte} {params : List Byte} (read : requestOf code params = some c) :
    code ∈ requestCodes := by
  by_contra unknown
  rw [requestOf_unknown params unknown] at read
  cases read

theorem readStatusForm_item {c : Instr} {params : List Byte} (read : readStatusForm params = some c) :
    requestItem c = some (0x01, params) := by
  match params with
  | [p] =>
    simp only [readStatusForm, Option.ite_none_right_eq_some] at read
    obtain ⟨plain, same⟩ := read
    cases same
    exact congrArg (fun b => some (0x01, [b])) (flagByte_of_masked p plain)

theorem settingReadForm_item {c : Instr} {params : List Byte} (read : settingReadForm params = some c) :
    requestItem c = some (0x02, params) := by
  match params with
  | [first, count] => cases read; rfl

theorem settingWriteForm_item {c : Instr} {params : List Byte} (read : settingWriteForm params = some c) :
    requestItem c = some (0x03, params) := by
  match params with
  | p :: rest =>
    obtain ⟨pairs, found, rfl⟩ := Option.map_eq_some_iff.mp read
    exact congrArg (fun l => some (0x03, l)) (bytesOfPairs_of_pairsOf _ _ found)

theorem setTimeForm_item {c : Instr} {params : List Byte} (read : setTimeForm params = some c) :
    requestItem c = some (0x04, params) := by
  match params with
  | [hi, lo] =>
    cases read
    simp only [requestItem, hiByte_joinBytes, loByte_joinBytes]

theorem writeCellsForm_item {c : Instr} {params : List Byte} (read : writeCellsForm params = some c) :
    requestItem c = some (0x20, params) := by
  match params with
  | first :: records =>
    simp only [writeCellsForm, Option.ite_none_right_eq_some] at read
    cases read.2
    rfl

theorem fillCellsForm_item {c : Instr} {params : List Byte} (read : fillCellsForm params = some c) :
    requestItem c = some (0x21, params) := by
  match params with
  | [first, count, stride, code, attr, lead] =>
    simp only [fillCellsForm, Option.ite_none_right_eq_some] at read
    cases read.2
    rfl

theorem readCellsForm_item {c : Instr} {params : List Byte} (read : readCellsForm params = some c) :
    requestItem c = some (0x22, params) := by
  match params with
  | [plane, first, count, option] => cases read; rfl

theorem tableLoadForm_item {c : Instr} {params : List Byte} (read : tableLoadForm params = some c) :
    requestItem c = some (0x30, params) := by
  match params with
  | table :: hi :: lo :: entries =>
    cases read
    simp only [requestItem, hiByte_joinBytes, loByte_joinBytes]

theorem tableReadForm_item {c : Instr} {params : List Byte} (read : tableReadForm params = some c) :
    requestItem c = some (0x31, params) := by
  match params with
  | [table, copy, hi, lo, count] =>
    cases read
    simp only [requestItem, hiByte_joinBytes, loByte_joinBytes]

theorem readRequests_areTheirItems : Claim.ReadRequestsAreTheirItems := by
  intro c code params read
  have known := requestOf_code read
  unfold requestCodes at known
  simp only [List.mem_cons, List.not_mem_nil, or_false] at known
  rcases known with rfl | rfl | rfl | rfl | rfl | rfl | rfl | rfl | rfl | rfl | rfl | rfl | rfl | rfl | rfl | rfl | rfl | rfl
  · exact readStatusForm_item (requestOf_readStatus params ▸ read)
  · exact settingReadForm_item (requestOf_settingRead params ▸ read)
  · exact settingWriteForm_item (requestOf_settingWrite params ▸ read)
  · exact setTimeForm_item (requestOf_setTime params ▸ read)
  · obtain ⟨rfl, rfl⟩ := noParams_some (requestOf_quiesce params ▸ read); rfl
  · obtain ⟨rfl, rfl⟩ := noParams_some (requestOf_resume params ▸ read); rfl
  · obtain ⟨p, rfl, rfl⟩ := oneParam_some (requestOf_nodeReset params ▸ read); rfl
  · exact writeCellsForm_item (requestOf_writeCells params ▸ read)
  · exact fillCellsForm_item (requestOf_fillCells params ▸ read)
  · exact readCellsForm_item (requestOf_readCells params ▸ read)
  · obtain ⟨p, rfl, rfl⟩ := oneParam_some (requestOf_commit params ▸ read); rfl
  · exact tableLoadForm_item (requestOf_tableLoad params ▸ read)
  · exact tableReadForm_item (requestOf_tableRead params ▸ read)
  · obtain ⟨p, rfl, rfl⟩ := setParam_some (requestOf_tableActivate params ▸ read); rfl
  · obtain ⟨p, rfl, rfl⟩ := setParam_some (requestOf_tableAbandon params ▸ read); rfl
  · obtain ⟨p, rfl, rfl⟩ := oneParam_some (requestOf_ackEvents params ▸ read); rfl
  · obtain ⟨p, rfl, rfl⟩ := oneParam_some (requestOf_toneStart params ▸ read); rfl
  · obtain ⟨rfl, rfl⟩ := noParams_some (requestOf_toneStop params ▸ read); rfl

/-- Settles O8, form by form. -/
theorem requestsAreReadAsWritten : Obligations.RequestsAreReadAsWritten :=
  ⟨writtenRequests_read, readRequests_areTheirItems⟩

/-! ## Items that are no request (R188) -/

theorem sampleItems_read : Claim.SampleItemsAreRead := by
  unfold Claim.SampleItemsAreRead
  decide

theorem masked_of_large : ∀ p : Byte, 2 ≤ p.toNat → p &&& 0xFE ≠ 0 := by decide

theorem attr_reserved : ∀ p : Byte, 32 ≤ p.toNat → p &&& 0xE0 ≠ 0 := by decide

theorem highBit_iff : ∀ p : Byte, p.getLsbD 7 = true ↔ 128 ≤ p.toNat := by decide

theorem pairsOf_odd (l : List Byte) (odd : l.length % 2 = 1) : pairsOf l = none := by
  induction l using pairsOf.induct with
  | case1 => cases odd
  | case2 => rfl
  | case3 id value rest ih =>
    rw [pairsOf, ih (by simp only [List.length_cons] at odd; omega)]
    rfl

theorem writeCellsForm_reserved {first code attr lead : Byte} (reserved : (RecordBytes.mk code attr lead).plain = false) :
    requestOf 0x20 [first, code, attr, lead] = none := by
  rw [requestOf_writeCells]
  refine if_neg ?_
  simp [recordsPlain, reserved]

theorem unsuitableItems_notRequests : Claim.UnsuitableItemsAreNotRequests := by
  refine ⟨fun p large => ?_, fun p large => ?_, fun params odd => ?_, fun first code attr lead large => ?_,
    fun first code attr lead some_ small => ?_, fun code params large => ?_⟩
  · rw [requestOf_readStatus]
    exact if_neg (masked_of_large p large)
  · have reserved : p.getLsbD 7 = true := highBit_iff p |>.mpr large
    rw [requestOf_tableActivate, requestOf_tableAbandon]
    exact ⟨if_pos reserved, if_pos reserved⟩
  · rw [requestOf_settingWrite]
    match params with
    | [] => rfl
    | p :: rest => exact congrArg (Option.map Instr.settingWrite) (pairsOf_odd _ (odd.resolve_right nofun))
  · refine writeCellsForm_reserved ?_
    unfold RecordBytes.plain
    rw [beq_eq_false_iff_ne.mpr (attr_reserved attr large), Bool.false_and]
  · have absent : lead.getLsbD 7 = false := Bool.eq_false_iff.mpr fun high => by
      have := (highBit_iff lead).mp high
      omega
    have notZero : lead ≠ 0 := fun zero => by rw [zero] at some_; exact absurd some_ (by decide)
    refine writeCellsForm_reserved ?_
    unfold RecordBytes.plain
    rw [absent, beq_eq_false_iff_ne.mpr notZero]
    exact Bool.and_false _
  · refine requestOf_unknown params fun known => ?_
    have inRange : ∀ c ∈ requestCodes, ¬(0x43 ≤ c.toNat ∨ c = 0) := by decide
    exact inRange code known large

/-- Settles O9, form by form. -/
theorem itemsAreDecodedFromTheirBytes : Obligations.ItemsAreDecodedFromTheirBytes :=
  ⟨sampleItems_read, unsuitableItems_notRequests⟩

end Sys2Proof.Machine
end

section
/-! Items the Request Engine decides itself (R186 to R189), and the items of a broadcast (R193). -/

namespace Sys2Proof.Machine

/-! ## The owner's part of each request -/

/-- What the owner of a request does; a command that is no request has no owner. -/
def ownerOf : Instr → State → Served
  | .readStatus clearErrors => State.serveReadStatus clearErrors
  | .settingRead first count => State.serveSettingRead first count
  | .settingWrite pairs => State.serveSettingWrite pairs
  | .setTime time => State.serveSetTime time
  | .quiesce => State.serveQuiesce
  | .resume => State.serveResume
  | .nodeReset scope => State.serveNodeReset scope
  | .writeCells first records => State.serveWriteCells first records
  | .fillCells first count stride record => State.serveFillCells first count stride record
  | .readCells plane first count option => State.serveReadCells plane first count option
  | .commit tag => State.serveCommit tag
  | .tableLoad table first entries => State.serveTableLoad table first entries
  | .tableRead table copy first count => State.serveTableRead table copy first count
  | .tableActivate set => State.serveTableActivate set
  | .tableAbandon set => State.serveTableAbandon set
  | .ackEvents seq => State.serveAckEvents seq
  | .toneStart pattern => State.serveToneStart pattern
  | .toneStop => State.serveToneStop
  | _ => (served · [])

/-- Every request is taken from the frame in process and served by its owner. -/
theorem exec_request {c : Instr} {item : Byte × List Byte} (isRequest : requestItem c = some item) (s : State) :
    exec c s = .next (s.takeItem c (ownerOf c)) := by
  cases c
  case readStatus | settingRead | settingWrite | setTime | quiesce | resume | nodeReset | writeCells | fillCells
    | readCells | commit | tableLoad | tableRead | tableActivate | tableAbandon | ackEvents | toneStart | toneStop => rfl
  all_goals cases isRequest

theorem exec_read {c : Instr} {code : Byte} {params : List Byte} (read : requestOf code params = some c) (s : State) :
    exec c s = .next (s.takeItem c (ownerOf c)) :=
  exec_request (readRequests_areTheirItems c code params read) s

section Offered

variable {s : State} {p : Processing} {c : Instr} {code : Byte} {params : List Byte}

theorem State.offers.read (offered : s.offers p c code params) : requestOf code params = some c := offered.2.2.2.1

/-- A request that its owner executes. -/
theorem exec_served {t : State} {data : List Byte} (offered : s.offers p c code params)
    (owner : ownerOf c s = served t data) : exec c s = .next (t.answered p code params .ok data) := by
  rw [exec_read offered.read, takeItem_served s p c code params _ t data offered owner]

/-- A request that its owner refuses. -/
theorem exec_refused {status : Status} {data : List Byte} (offered : s.offers p c code params)
    (owner : ownerOf c s = refusedWith s status data) : exec c s = .next (s.answered p code params status data) := by
  rw [exec_read offered.read, takeItem_refused s p c code params _ status data offered owner]

end Offered

/-! ## The largest reply (R189) -/

theorem tableOfByte_none {id : Byte} (large : 7 ≤ id.toNat) : tableOfByte id = none := List.getElem?_eq_none large

/-- The bytes of an entry, by the table's id. -/
theorem tableOfByte_some {id : Byte} (small : id.toNat < 7) :
    ∃ table, tableOfByte id = some table ∧ tableEntryBytes table = [1, 2, 1, 2, 2, 2, 20].getD id.toNat 0 := by
  refine ⟨allTables[id.toNat], List.getElem?_eq_getElem small, ?_⟩
  have all : ∀ n (h : n < allTables.length), tableEntryBytes allTables[n] = [1, 2, 1, 2, 2, 2, 20].getD n 0 := by decide
  exact all id.toNat small

theorem largestReplies_followTheTable : Claim.LargestRepliesFollowTheTable := by
  refine ⟨fun _ => rfl, fun _ _ => rfl, fun params code known => ?_, fun params code known => ?_,
    fun params code known => ?_,
    fun _ => rfl, fun _ _ _ _ => rfl, fun table copy hi lo count => ?_, fun code params unknown => ?_⟩
  · simp only [List.mem_cons, List.not_mem_nil, or_false] at known
    rcases known with rfl | rfl | rfl | rfl | rfl | rfl <;> rfl
  · simp only [List.mem_cons, List.not_mem_nil, or_false] at known
    rcases known with rfl | rfl | rfl | rfl | rfl <;> rfl
  · simp only [List.mem_cons, List.not_mem_nil, or_false] at known
    rcases known with rfl | rfl <;> rfl
  · show (match tableOfByte table with
      | none => 3
      | some t => if copy.toNat ≤ 1 then 4 + min (count.toNat * tableEntryBytes t) 240 else 3) = _
    by_cases large : 7 ≤ table.toNat
    · rw [tableOfByte_none large, if_pos (.inl large)]
    · obtain ⟨t, names, bytes⟩ := tableOfByte_some (Nat.lt_of_not_le large)
      rw [names]
      simp only
      by_cases legal : copy.toNat ≤ 1
      · rw [if_pos legal, if_neg (by omega), bytes]
      · rw [if_neg legal, if_pos (by omega)]
  · simp only [List.mem_cons, List.not_mem_nil, or_false, not_or] at unknown
    unfold largestReply
    simp only [unknown, or_false, if_false]

/-! ## Items that are not executed (R186 to R188) -/

theorem roomCheck_truncates : Claim.RoomCheckTruncates := by
  intro s p c code params engine addressed item full which
  have ended : ∀ q : Processing, q.broadcast = false → q.slot = p.slot →
      s.endProcessing q none = ((s.closeReply q).readyGood p.slot).withEngine .idle := fun q plain slot => by
    unfold State.endProcessing
    rw [plain, slot]
    rfl
  rcases which with read | ⟨unread, rfl⟩
  · rw [exec_read read, takeItem_truncated s p c code params _ engine addressed item read full]
    exact congrArg _ (ended _ addressed rfl)
  · refine congrArg Host.Outcome.next ?_
    unfold State.takeUnknown State.processing
    rw [engine]
    simp only
    rw [if_pos ⟨item, unread⟩, if_neg (by rw [addressed]; decide)]
    unfold State.answerItem
    rw [if_neg (by omega)]
    exact ended _ addressed rfl

theorem malformedItems_endProcessing : Claim.MalformedItemsEndProcessing := by
  intro s p code engine item
  have taken : exec .malformedItem s = .next
      (if p.broadcast then s.endProcessing p none
        else if 3 ≤ p.room then
          (s.writeReply p (replyItem code .badRequest [])).endProcessing
            { p with answered := p.answered + 1, reply := p.reply + 3 } none
        else s.endProcessing { p with truncated := true } none) := by
    refine congrArg Host.Outcome.next ?_
    unfold State.takeMalformed State.processing
    rw [engine]
    simp only [item]
  refine ⟨fun addressed fits => ?_, fun addressed full => ?_, fun broadcast => ?_⟩
  · rw [taken, if_neg (by rw [addressed]; decide), if_pos fits]
    unfold State.endProcessing
    simp only
    rw [addressed]
    rfl
  · rw [taken, if_neg (by rw [addressed]; decide), if_neg (by omega)]
    unfold State.endProcessing
    simp only
    rw [addressed]
    rfl
  · rw [taken, if_pos broadcast]
    unfold State.endProcessing
    rw [broadcast]
    rfl

theorem unknownRequests_answeredBadRequest : Claim.UnknownRequestsAreAnsweredBadRequest := by
  intro s p code params engine item unread
  have taken : exec (.unknownRequest code params) s = .next
      (if p.broadcast then s.broadcastItem p params false (served · [])
        else s.answerItem p code params (refusedWith · .badRequest [])) := by
    refine congrArg Host.Outcome.next ?_
    unfold State.takeUnknown State.processing
    rw [engine]
    simp only
    rw [if_pos ⟨item, unread⟩]
  refine ⟨fun addressed fits => ?_, fun broadcast => ?_⟩
  · rw [taken, if_neg (by rw [addressed]; decide)]
    unfold State.answerItem State.answered refusedWith
    rw [if_pos fits]
    simp only [Bool.or_false]
    rfl
  · rw [taken, if_pos broadcast]
    rfl

/-- Settles O20, by the first step of R186 that decides the item. -/
theorem unfitItemsAreNotExecuted : Obligations.UnfitItemsAreNotExecuted :=
  ⟨largestReplies_followTheTable, roomCheck_truncates, malformedItems_endProcessing, unknownRequests_answeredBadRequest⟩

/-! ## Broadcasts (R193) -/

section Broadcast

variable {s : State} {p : Processing} {c : Instr} {code : Byte} {params : List Byte}

theorem exec_broadcast (offered : s.offersBroadcast p c code params) :
    exec c s = .next
      (if c.inBroadcast then (ownerOf c s).state.afterItem (p.past params 0) (ownerOf c s).stop (ownerOf c s).due
        else s.passedOver p params) := by
  rw [exec_read offered.2.2.2, takeItem_broadcast s p c code params _ offered]

end Broadcast

theorem broadcasts_skipTheOtherRequests : Claim.BroadcastsSkipTheOtherRequests := by
  intro s p c code params offered skipped
  have item := readRequests_areTheirItems c code params offered.2.2.2
  have passes : c.inBroadcast = false := by
    cases c <;> cases item
    case settingWrite | setTime | quiesce | resume | nodeReset | commit | tableActivate | toneStart | toneStop =>
      exact absurd skipped (by decide)
    all_goals rfl
  rw [exec_broadcast offered, passes]
  rfl

/-- An owner that neither looks at the engine nor stops the processing. -/
def EngineFree (serve : State → Served) : Prop :=
  ∀ (s : State) (e : Engine), serve (s.withEngine e) = { serve s with state := (serve s).state.withEngine e } ∧
    (serve s).stop = false ∧ (serve s).due = none

theorem serveSettingWrite_engineFree (pairs : List (Byte × Byte)) : EngineFree (State.serveSettingWrite pairs) := by
  intro s e
  unfold State.serveSettingWrite
  cases pairs.find? fun pair => !pairInRange pair with
  | some pair => exact ⟨rfl, rfl, rfl⟩
  | none =>
    simp only
    rw [writeSettings_eq, writeSettings_eq]
    exact ⟨rfl, rfl, rfl⟩

theorem serveQuiesce_engineFree : EngineFree State.serveQuiesce := by
  intro s e
  unfold State.serveQuiesce
  rw [State.withEngine_node]
  split <;> exact ⟨rfl, rfl, rfl⟩

theorem serveResume_engineFree : EngineFree State.serveResume := by
  intro s e
  unfold State.serveResume
  rw [State.withEngine_node]
  split <;> exact ⟨rfl, rfl, rfl⟩

theorem serveTableActivate_engineFree (set : BitVec 7) : EngineFree (State.serveTableActivate set) := by
  intro s e
  unfold State.serveTableActivate
  rw [State.withEngine_tables]
  split
  · exact ⟨rfl, rfl, rfl⟩
  · cases s.tables.pendingIn set with
    | some table => exact ⟨rfl, rfl, rfl⟩
    | none => cases s.tables.failureIn (tablesOf set) <;> exact ⟨rfl, rfl, rfl⟩

theorem serveToneStart_engineFree (pattern : Byte) : EngineFree (State.serveToneStart pattern) := by
  intro s e
  unfold State.serveToneStart
  rw [State.withEngine_node]
  split
  · split <;> exact ⟨rfl, rfl, rfl⟩
  · exact ⟨rfl, rfl, rfl⟩

/-- The requests a broadcast executes and answers as an addressed COMMAND would. -/
theorem ownerOf_engineFree {c : Instr} {code : Byte} {params : List Byte} (item : requestItem c = some (code, params))
    (executed : code ∈ [0x03, 0x04, 0x10, 0x11, 0x23, 0x32, 0x41, 0x42]) :
    c.inBroadcast = true ∧ EngineFree (ownerOf c) := by
  cases c <;> cases item
  case settingWrite pairs => exact ⟨rfl, serveSettingWrite_engineFree pairs⟩
  case setTime time => exact ⟨rfl, fun _ _ => ⟨rfl, rfl, rfl⟩⟩
  case quiesce => exact ⟨rfl, serveQuiesce_engineFree⟩
  case resume => exact ⟨rfl, serveResume_engineFree⟩
  case commit tag => exact ⟨rfl, fun _ _ => ⟨rfl, rfl, rfl⟩⟩
  case tableActivate set => exact ⟨rfl, serveTableActivate_engineFree set⟩
  case toneStart pattern => exact ⟨rfl, serveToneStart_engineFree pattern⟩
  case toneStop => exact ⟨rfl, fun _ _ => ⟨rfl, rfl, rfl⟩⟩
  all_goals exact absurd executed (by decide)

/-- A NODE_RESET in a broadcast ends the processing, and is due when its scope is valid. -/
theorem exec_broadcastReset {s : State} {p : Processing} {scope code : Byte} {params : List Byte}
    (offered : s.offersBroadcast p (.nodeReset scope) code params) :
    exec (.nodeReset scope) s = .next
      (match scopeOf scope with
        | none => (s.readyGood p.slot).withEngine .idle
        | some which => s.withEngine (.due p.slot which)) := by
  rw [exec_broadcast offered]
  refine congrArg Host.Outcome.next ?_
  show (State.serveNodeReset scope s).state.afterItem (p.past params 0) (State.serveNodeReset scope s).stop
    (State.serveNodeReset scope s).due = _
  unfold State.serveNodeReset State.afterItem State.endProcessing
  rw [show (p.past params 0).broadcast = true from offered.2.1]
  cases scopeOf scope <;> rfl

theorem scopeOf_invalid {scope : Byte} (invalid : scope = 0 ∨ 4 ≤ scope.toNat) : scopeOf scope = none := by
  have other : ∀ n : Byte, 1 ≤ n.toNat → n.toNat ≤ 3 → scope ≠ n := fun n low high same => by
    rw [same] at invalid
    rcases invalid with zero | large
    · rw [zero] at low; exact absurd low (by decide)
    · omega
  unfold scopeOf
  rw [if_neg (other 1 (by decide) (by decide)), if_neg (other 2 (by decide) (by decide)),
    if_neg (other 3 (by decide) (by decide))]

theorem broadcasts_executeTheRest : Claim.BroadcastsExecuteTheRest := by
  intro s p c code params offered
  have read := offered.2.2.2
  refine ⟨fun executed => ?_, ?_, ?_, ?_, fun scope invalid => ?_⟩
  · obtain ⟨inBroadcast, free⟩ := ownerOf_engineFree (readRequests_areTheirItems c code params read) executed
    obtain ⟨_, stop, due⟩ := free s .idle
    refine ⟨(ownerOf c s).state, (ownerOf c s).status, (ownerOf c s).data, ?_, fun p' addressed => ?_⟩
    · rw [exec_broadcast offered, if_pos inBroadcast, stop, due]
      rfl
    · obtain ⟨same, _, _⟩ := free s (.taking p')
      rw [exec_read read, takeItem_offers _ p' c code params _ addressed, same, stop, due, Bool.or_false]
      rfl
  · rintro rfl
    exact exec_broadcastReset offered
  · rintro rfl
    exact exec_broadcastReset offered
  · rintro rfl
    exact exec_broadcastReset offered
  · rintro rfl
    have reset := exec_broadcastReset offered
    rw [scopeOf_invalid invalid] at reset
    exact reset

/-- Settles O21, by the codes a broadcast executes. -/
theorem broadcastsExecuteTheirRequests : Obligations.BroadcastsExecuteTheirRequests :=
  ⟨broadcasts_skipTheOtherRequests, broadcasts_executeTheRest⟩

end Sys2Proof.Machine
end

section
/-! READ_STATUS and the settings (R194 to R198). -/

namespace Sys2Proof.Machine

/-! ## READ_STATUS (R194, R195) -/

theorem hiByte_count (n : Nat) : hiByte (BitVec.ofNat 16 n) = BitVec.ofNat 8 (n / 256) := by
  rw [hiByte_ofNat]
  apply BitVec.eq_of_toNat_eq
  simp only [BitVec.toNat_ofNat]
  omega

theorem loByte_count (n : Nat) : loByte (BitVec.ofNat 16 n) = BitVec.ofNat 8 n := by
  rw [loByte_ofNat]
  apply BitVec.eq_of_toNat_eq
  simp only [BitVec.toNat_ofNat]
  omega

theorem setByte_eq (set : BitVec 7) : set.setWidth 8 = BitVec.ofNat 8 set.toNat := by
  apply BitVec.eq_of_toNat_eq
  rw [BitVec.toNat_setWidth, BitVec.toNat_ofNat]

/-- R98: behind the send point every entry is UNSENT. -/
theorem unsent_behindSendPoint (l : List Entry) (order : sentFirst l) :
    l.length - (l.takeWhile Entry.isSent).length = l.countP fun e => !e.isSent := by
  induction l with
  | nil => rfl
  | cons e rest ih =>
    have short := (List.takeWhile_prefix Entry.isSent (l := rest)).length_le
    cases sent : e.isSent with
    | true =>
      rw [List.takeWhile_cons_of_pos sent, List.countP_cons_of_neg (by simp [sent]), ← ih order.2]
      simp only [List.length_cons]
      omega
    | false =>
      rw [List.takeWhile_cons_of_neg (by simp [sent])]
      refine (List.countP_eq_length.mpr fun x inList => ?_).symm
      rcases List.mem_cons.mp inList with rfl | behind
      · rw [sent]; rfl
      · rw [order.1 sent x behind]; rfl

theorem unsentCount_eq (q : EventQueue) (order : sentFirst q.entries) :
    q.unsentCount = q.entries.countP fun e => !e.isSent := unsent_behindSendPoint q.entries order

theorem readStatus_reportsAndClears : Claim.ReadStatusReportsAndClears := by
  intro s p clear code params order offered flag high low data
  have readings : s.statusData = data := by
    unfold State.statusData natBytes
    rw [unsentCount_eq _ order, setByte_eq, hiByte_ofNat, loByte_ofNat, hiByte_count, loByte_count, hiByte_count,
      loByte_count]
    rfl
  refine ⟨rfl, ?_⟩
  rw [← readings]
  exact exec_served offered rfl

/-! ## SETTING_READ (R197) -/

theorem byteAt_run {n : Nat} (v : Vector Byte n) (first count : Nat) (fits : first + count ≤ n) :
    ((List.range count).map fun i => byteAt v (first + i)) = (v.toList.drop first).take count := by
  refine List.ext_getElem (by simp; omega) fun i inRange _ => ?_
  have inStore : first + i < v.toList.length := by simp at inRange ⊢; omega
  rw [List.getElem_map, List.getElem_range, List.getElem_take, List.getElem_drop]
  exact List.getD_eq_getElem _ _ inStore

theorem settingRead_returnsStoredValues : Claim.SettingReadReturnsStoredValues := by
  intro s p first count code params offered
  have legal : (first.toNat ≤ 23 ∧ 1 ≤ count.toNat ∧ count.toNat ≤ 24 ∧ first.toNat + count.toNat - 1 ≤ 23) ↔
      1 ≤ count.toNat ∧ first.toNat + count.toNat ≤ 24 := by omega
  refine ⟨fun inRange => exec_served offered ?_, fun outside => exec_refused offered ?_⟩
  · refine (if_pos (legal.mpr inRange)).trans ?_
    rw [byteAt_run _ _ _ inRange.2]
  · exact if_neg (mt legal.mp outside)

/-- Settles O22, by the readings and the range. -/
theorem statusAndSettingsAreRead : Obligations.StatusAndSettingsAreRead :=
  ⟨readStatus_reportsAndClears, settingRead_returnsStoredValues⟩

/-! ## SETTING_WRITE (R198) -/

theorem pairInRange_iff (pair : Byte × Byte) :
    pairInRange pair = true ↔ ∃ n, settingOfId pair.1 = some n ∧ settingInRange n pair.2 = true := by
  unfold pairInRange
  cases settingOfId pair.1 <;> simp

theorem settingWrite_refusesTheWholeList : Claim.SettingWriteRefusesTheWholeList := by
  intro s p good rest bad code params legal illegal offered
  have fails : pairInRange bad = false := Bool.eq_false_iff.mpr fun passes => by
    obtain ⟨n, names, inRange⟩ := (pairInRange_iff bad).mp passes
    exact Bool.noConfusion ((illegal n names).symm.trans inRange)
  have found : ((good ++ bad :: rest).find? fun pair => !pairInRange pair) = some bad := by
    rw [List.find?_append, List.find?_eq_none.mpr fun pair mem => by rw [(pairInRange_iff pair).mpr (legal pair mem)]; decide,
      List.find?_cons_of_pos (by rw [fails]; rfl)]
    rfl
  refine exec_refused offered ?_
  show State.serveSettingWrite _ s = _
  unfold State.serveSettingWrite
  rw [found]

/-- An accepted list is stored, and the owners act. -/
theorem exec_settingWrite {s : State} {p : Processing} {pairs : List (Byte × Byte)} {code : Byte} {params : List Byte}
    (offered : s.offers p (.settingWrite pairs) code params)
    (legal : ∀ pair ∈ pairs, ∃ n, settingOfId pair.1 = some n ∧ settingInRange n pair.2 = true) :
    exec (.settingWrite pairs) s = .next ((s.writeSettings pairs).answered p code params .ok []) := by
  have found : (pairs.find? fun pair => !pairInRange pair) = none :=
    List.find?_eq_none.mpr fun pair mem => by rw [(pairInRange_iff pair).mpr (legal pair mem)]; decide
  refine exec_served offered ?_
  show State.serveSettingWrite _ s = _
  unfold State.serveSettingWrite
  rw [found]

/-- The settings a list writes, by name. -/
theorem writesAny_iff (pairs : List (Byte × Byte)) (names : List Setting) :
    writesAny pairs names = true ↔ ∃ n ∈ names, (pairs.any fun pair => settingOfId pair.1 == some n) = true := by
  have named : ∀ pair : Byte × Byte, ((settingOfId pair.1).any fun n => names.contains n) = true ↔
      ∃ n ∈ names, settingOfId pair.1 = some n := fun pair => by
    cases settingOfId pair.1 <;> simp
  unfold writesAny
  simp only [List.any_eq_true, named, beq_iff_eq]
  constructor
  · rintro ⟨pair, mem, n, listed, isN⟩
    exact ⟨n, listed, pair, mem, isN⟩
  · rintro ⟨n, listed, pair, mem, isN⟩
    exact ⟨pair, mem, n, listed, isN⟩

theorem settingWrite_storesEveryValue : Claim.SettingWriteStoresEveryValue := by
  intro s p pairs code params legal offered
  have quiet : ∀ names : List Setting,
      names ⊆ [.blinkAOn, .blinkAOff, .blinkBOn, .blinkBOff, .lightMode, .lightWindow, .lossTimeout] →
        ¬writesAny pairs names = true := fun names listed writes => by
    obtain ⟨n, inNames, written⟩ := (writesAny_iff pairs names).mp writes
    obtain ⟨pair, mem, named⟩ := List.any_eq_true.mp written
    obtain ⟨m, isM, _, other⟩ := legal pair mem
    rw [Option.some.inj (isM.symm.trans (eq_of_beq named))] at other
    exact other (listed inNames)
  refine ⟨storePairs pairs s.settings, ?_, byteAt_storePairs pairs s.settings⟩
  rw [exec_settingWrite offered fun pair mem => by
    obtain ⟨n, named, inRange, _⟩ := legal pair mem
    exact ⟨n, named, inRange⟩]
  rw [writeSettings_eq, if_neg (quiet _ (by decide)), if_neg (quiet _ (by decide)), if_neg (quiet _ (by decide)),
    if_neg fun h => quiet _ (by decide) h.1]
  rfl

theorem writesAny_single {id value : Byte} {n : Setting} (named : settingOfId id = some n) (names : List Setting) :
    writesAny [(id, value)] names = names.contains n := by
  unfold writesAny
  rw [List.any_cons, List.any_nil, Bool.or_false, named]
  rfl

theorem settingWrites_actInTheirOwners : Claim.SettingWritesActInTheirOwners := by
  intro s p id value code params n named inRange offered stored A B
  have stores : storePairs [(id, value)] s.settings = storeSetting s.settings n value := by
    simp only [storePairs, named]
  have written := exec_settingWrite offered fun pair mem => by
    rw [List.mem_singleton.mp mem]
    exact ⟨n, named, inRange⟩
  rw [writeSettings_eq, stores] at written
  simp only [writesAny_single named] at written
  refine ⟨fun which => ?_, fun which => ?_, fun which => ?_, fun which online => ?_⟩
  · rcases which with rfl | rfl <;> exact written
  · rcases which with rfl | rfl <;> exact written
  · rcases which with rfl | rfl <;> exact written
  · subst which
    rw [if_pos (show [Setting.lossTimeout].contains .lossTimeout = true ∧ s.node.state = .online from
      ⟨rfl, online⟩)] at written
    exact written

theorem lightRuns_iff (s : State) :
    s.lightRuns = true ↔ (s.node.state = .online ∨ s.node.state = .standalone) ∧ s.setting .lightMode ≠ 0 := by
  unfold State.lightRuns
  rw [Bool.and_eq_true, Bool.or_eq_true, beq_iff_eq, beq_iff_eq, bne_iff_ne]

/-- The measurement that a write of a light setting begins. -/
theorem restarted_eq (s : State) (u : LightUnit) :
    (if s.lightRuns then u.start (s.setting .lightMode) else u.stop) =
      { u with
        state := if (s.node.state = .online ∨ s.node.state = .standalone) ∧ s.setting .lightMode = 1 then .edgeWait
          else if (s.node.state = .online ∨ s.node.state = .standalone) ∧ s.setting .lightMode = 2 then .windowWait
          else .stopped
        count := 0
        windowSweeps := 0 } := by
  by_cases on : s.lightRuns = true
  · obtain ⟨runs, _⟩ := (lightRuns_iff s).mp on
    rw [if_pos on]
    unfold LightUnit.start
    by_cases period : s.setting .lightMode = 1
    · rw [if_pos period, if_pos ⟨runs, period⟩]
    · rw [if_neg period, if_neg (show ¬(_ ∧ s.setting .lightMode = 1) from fun h => period h.2)]
      by_cases window : s.setting .lightMode = 2
      · rw [if_pos window, if_pos ⟨runs, window⟩]
      · rw [if_neg window, if_neg (show ¬(_ ∧ s.setting .lightMode = 2) from fun h => window h.2)]
        rfl
  · have stays : ∀ mode : Byte, mode ≠ 0 →
        ¬((s.node.state = .online ∨ s.node.state = .standalone) ∧ s.setting .lightMode = mode) :=
      fun mode some_ h => on ((lightRuns_iff s).mpr ⟨h.1, h.2 ▸ some_⟩)
    rw [if_neg on, if_neg (stays 1 (by decide)), if_neg (stays 2 (by decide))]
    rfl

theorem acceptedLists_actOnce : Claim.AcceptedListsActOnce := by
  intro s p pairs code params legal offered names runs
  have pair : ∀ a b, (names a ∨ names b) ↔ writesAny pairs [a, b] = true := fun a b => by
    rw [writesAny_iff]
    simp [names]
  have single : ∀ a, names a = true ↔ writesAny pairs [a] = true := fun a => by
    rw [writesAny_iff]
    simp [names]
  refine ⟨storePairs pairs s.settings, byteAt_storePairs pairs s.settings, ?_⟩
  rw [exec_settingWrite offered legal, writeSettings_eq, restarted_eq,
    if_congr (pair .blinkAOn .blinkAOff).symm rfl rfl, if_congr (pair .blinkBOn .blinkBOff).symm rfl rfl,
    if_congr (pair .lightMode .lightWindow).symm rfl rfl,
    if_congr (and_congr_left' (single .lossTimeout).symm) rfl rfl]
  rfl

/-- Settles O23, by what an accepted list makes of the state. -/
theorem settingWritesStoreAllOrNone : Obligations.SettingWritesStoreAllOrNone :=
  ⟨settingWrite_refusesTheWholeList, settingWrite_storesEveryValue, settingWrites_actInTheirOwners, acceptedLists_actOnce⟩

end Sys2Proof.Machine
end

section
/-! Node Control's requests and NODE_RESET (R154, R155, R165, R192), and the Cell Store's requests (R10, R14 to R17). -/

namespace Sys2Proof.Machine

/-! ## SET_TIME, QUIESCE, RESUME -/

theorem setTime_writesTheCounter : Claim.SetTimeWritesTheCounter := fun _ _ _ _ _ offered => exec_served offered rfl

theorem quiesce_parksTheNode : Claim.QuiesceParksTheNode := by
  intro s p code params offered
  refine ⟨fun online => exec_served offered ?_, fun quiescent => exec_served offered ?_⟩
  · exact congrArg (served · []) (if_pos online)
  · exact congrArg (served · []) (if_neg (by rw [quiescent]; decide))

theorem resume_bringsTheNodeBack : Claim.ResumeBringsTheNodeBack := by
  intro s p code params offered
  refine ⟨fun quiescent => exec_served offered ?_, fun online => exec_served offered ?_⟩
  · refine congrArg (served · []) ((if_pos quiescent).trans ?_)
    exact beginMeasurement_online (s := s.withNode { s.node with state := .online, silence := 0 }) rfl
  · exact congrArg (served · []) (if_neg (by rw [online]; decide))

/-- Settles O24, request by request. -/
theorem nodeRequestsTakeEffect : Obligations.NodeRequestsTakeEffect :=
  ⟨setTime_writesTheCounter, quiesce_parksTheNode, resume_bringsTheNodeBack⟩

/-! ## NODE_RESET (R192) -/

/-- A NODE_RESET that is answered ends the processing, and is due when its scope is valid. -/
theorem exec_nodeReset {s : State} {p : Processing} {scope code : Byte} {params : List Byte}
    (offered : s.offers p (.nodeReset scope) code params) :
    exec (.nodeReset scope) s = .next
      (match scopeOf scope with
        | none =>
          (((s.writeReply p [code, 2, 0]).closeReply { p.past params 3 with resetStop := true }).readyGood
            p.slot).withEngine .idle
        | some which =>
          ((s.writeReply p [code, 0, 0]).closeReply { p.past params 3 with resetStop := true }).withEngine
            (.due p.slot which)) := by
  have addressed : p.broadcast = false := offered.2.1
  rw [exec_read offered.read, takeItem_offers s p _ code params _ offered]
  refine congrArg Host.Outcome.next ?_
  show State.afterItem (State.writeReply (State.serveNodeReset scope s).state p
    (replyItem code (State.serveNodeReset scope s).status (State.serveNodeReset scope s).data))
    { p.past params (3 + (State.serveNodeReset scope s).data.length) with
      resetStop := p.resetStop || (State.serveNodeReset scope s).stop }
    (State.serveNodeReset scope s).stop (State.serveNodeReset scope s).due = _
  unfold State.serveNodeReset State.afterItem State.endProcessing Processing.past
  cases scopeOf scope <;> simp only [addressed, Bool.or_true, Bool.true_or] <;> rfl

/-- Settles O25, by the scope. -/
theorem nodeResetIsMadeDue : Obligations.NodeResetIsMadeDue := by
  intro s p scope code params offered closed
  have taken := exec_nodeReset offered
  refine ⟨fun same => ?_, fun same => ?_, fun same => ?_, fun invalid => ?_⟩
  · subst same
    exact taken
  · subst same
    exact taken
  · subst same
    exact taken
  · rw [scopeOf_invalid invalid] at taken
    exact taken

theorem exec_resetEffect {s : State} {id : SlotId} {scope : Scope} (due : s.engine = .due id scope) :
    exec .resetEffect s = .next (((s.resetScope scope).readyGood id).withEngine .idle) := by
  refine congrArg Host.Outcome.next ?_
  unfold State.resetDue
  rw [due]

/-- Behind the last setting there is none. -/
theorem byteAt_behind (st : Vector Byte 24) (i : Nat) (behind : 24 ≤ i) : byteAt st i = 0 := by
  unfold byteAt
  rw [List.getD_eq_getElem?_getD, List.getElem?_eq_none (by simpa using behind)]
  rfl

/-- A byte of the settings is a setting's value. -/
theorem settingId_surjective (i : Nat) (inStore : i < 24) : ∃ n, settingId n = i := by
  have all : ∀ i : Fin 24, settingId (allSettings.getD i.val .phases) = i.val := by decide
  exact ⟨_, all ⟨i, inStore⟩⟩

theorem displayGroup_reset (st : Vector Byte 24) (i : Nat) :
    byteAt (resetGroup settingInDisplayGroup st) i =
      if i < 10 then [4, 125, 0, 0, 8, 125, 125, 31, 31, 1].getD i 0 else byteAt st i := by
  by_cases inStore : i < 24
  · obtain ⟨n, rfl⟩ := settingId_surjective i inStore
    rw [byteAt_resetGroup]
    cases n <;> rfl
  · rw [if_neg (by omega), byteAt_behind _ _ (by omega), byteAt_behind _ _ (by omega)]

theorem eventGroup_reset (st : Vector Byte 24) (i : Nat) :
    byteAt (resetGroup settingInEventGroup st) i =
      if i = 18 then 4 else if i = 19 then 3 else if i = 20 then 0 else byteAt st i := by
  by_cases inStore : i < 24
  · obtain ⟨n, rfl⟩ := settingId_surjective i inStore
    rw [byteAt_resetGroup]
    cases n <;> rfl
  · rw [if_neg (by omega), if_neg (by omega), if_neg (by omega), byteAt_behind _ _ (by omega),
      byteAt_behind _ _ (by omega)]

/-- Settles O26: a due reset is the reset of its scope, and the frame is readied. -/
theorem dueResetsTakeEffect : Obligations.DueResetsTakeEffect :=
  ⟨fun s _ => ⟨exec_resetEffect, exec_resetEffect, displayGroup_reset s.settings, eventGroup_reset s.settings⟩,
    fun _ _ => exec_resetEffect, rfl⟩

/-! ## Records (R10) -/

theorem renderOf_none : ∀ attr : Byte, renderOf attr = none ↔ attr.toNat % 4 = 3 := by decide

theorem renderOf_raw : ∀ attr : Byte, renderOf attr = some .raw ↔ attr.toNat % 4 = 0 := by decide

theorem blinkOf_none : ∀ attr : Byte, blinkOf attr = none ↔ attr.toNat / 4 % 4 = 3 := by decide

theorem leadOf_value : ∀ lead : Byte,
    (leadOf lead).map Fin.val = if 128 ≤ lead.toNat then some (lead.toNat - 128) else none := by decide

theorem attr_rebuilt : ∀ attr : Byte, attr &&& 0xE0 = 0 →
    ((renderOf attr).all fun render => (blinkOf attr).all fun blink =>
      (renderBits render ||| blinkBits blink ||| (if attr.getLsbD 4 then 0x10#8 else 0)) == attr) = true := by decide

theorem lead_rebuilt : ∀ lead : Byte, (lead.getLsbD 7 || lead == 0) = true → leadByte (leadOf lead) = lead := by decide

/-- A record whose modes are legal, by its code and its lead. -/
theorem recordFor_modes {target : Nat} {code attr lead : Byte} {render : Render} {blink : BlinkClass}
    (isRender : renderOf attr = some render) (isBlink : blinkOf attr = some blink) :
    recordFor target ⟨code, attr, lead⟩ =
      if render ≠ .raw ∧ 64 ≤ code.toNat then .error .badCode
      else if 128 ≤ lead.toNat ∧ target ≤ lead.toNat - 128 then .error .badLink
      else .ok ⟨code, render, blink, attr.getLsbD 4, leadOf lead⟩ := by
  have value := leadOf_value lead
  unfold recordFor
  simp only [isRender, isBlink]
  split
  · rfl
  · cases isLead : leadOf lead with
    | none =>
      rw [isLead] at value
      by_cases present : 128 ≤ lead.toNat
      · rw [if_pos present] at value; cases value
      · rw [if_neg fun h => present h.1]
    | some l =>
      rw [isLead] at value
      by_cases present : 128 ≤ lead.toNat
      · rw [if_pos present] at value
        have same : l.val = lead.toNat - 128 := Option.some.inj value
        simp only [same]
        by_cases lower : lead.toNat - 128 < target
        · rw [if_pos lower, if_neg fun h => absurd h.2 (Nat.not_le.mpr lower)]
        · rw [if_neg lower, if_pos ⟨present, Nat.le_of_not_lt lower⟩]
      · rw [if_neg present] at value; cases value

/-- Settles O27: the modes, then the code, then the lead. -/
theorem recordsAreCheckedInOrder : Obligations.RecordsAreCheckedInOrder := by
  intro target code attr lead plain render blink present
  have modes : render ≠ 3 → blink ≠ 3 → ∃ r cls, renderOf attr = some r ∧ blinkOf attr = some cls ∧
      (r ≠ .raw ↔ render ≠ 0) := fun legalRender legalBlink => by
    obtain ⟨r, isR⟩ := Option.ne_none_iff_exists'.mp (mt (renderOf_none attr).mp legalRender)
    obtain ⟨cls, isB⟩ := Option.ne_none_iff_exists'.mp (mt (blinkOf_none attr).mp legalBlink)
    refine ⟨r, cls, isR, isB, not_congr ?_⟩
    rw [← renderOf_raw attr, isR, Option.some.injEq]
  refine ⟨fun illegal => ?_, fun legalRender legalBlink coded large => ?_,
    fun legalRender legalBlink code_ isPresent notLower => ?_, fun legalRender legalBlink code_ lower => ?_⟩
  · unfold recordFor
    simp only
    rcases illegal with bad | bad
    · rw [(renderOf_none attr).mpr bad]
    · rw [(blinkOf_none attr).mpr bad]
      cases renderOf attr <;> rfl
  · obtain ⟨r, cls, isR, isB, raw⟩ := modes legalRender legalBlink
    rw [recordFor_modes isR isB, if_pos ⟨raw.mpr coded, large⟩]
  · obtain ⟨r, cls, isR, isB, raw⟩ := modes legalRender legalBlink
    rw [recordFor_modes isR isB, if_neg fun h => code_.elim (raw.mp h.1) (Nat.not_lt.mpr h.2),
      if_pos ⟨isPresent, notLower⟩]
  · obtain ⟨r, cls, isR, isB, raw⟩ := modes legalRender legalBlink
    unfold RecordBytes.plain at plain
    rw [Bool.and_eq_true, beq_iff_eq] at plain
    have rebuilt := attr_rebuilt attr plain.1
    rw [isR, isB] at rebuilt
    refine ⟨⟨code, r, cls, attr.getLsbD 4, leadOf lead⟩, ?_, ?_⟩
    · rw [recordFor_modes isR isB, if_neg fun h => code_.elim (raw.mp h.1) (Nat.not_lt.mpr h.2),
        if_neg fun h => lower.elim (· h.1) (Nat.not_lt.mpr h.2)]
    · unfold recordBytes
      rw [lead_rebuilt lead plain.2, eq_of_beq rebuilt]

/-! ## READ_CELLS and COMMIT (R14 to R17) -/

theorem planeOf_none {c : CellStore} {plane : Byte} (large : 2 < plane.toNat) : c.planeOf plane = none := by
  have other : ∀ n : Byte, n.toNat ≤ 2 → plane ≠ n := fun n low same => by rw [same] at large; omega
  unfold CellStore.planeOf
  rw [if_neg (other 0 (by decide)), if_neg (other 1 (by decide)), if_neg (other 2 (by decide))]

theorem plane_cases : ∀ plane : Byte, plane.toNat ≤ 2 → plane = 0 ∨ plane = 1 ∨ plane = 2 := by decide

/-- The cells of a reading, entry by entry. -/
theorem readCellRun_reads (read : Plane) (glyphs : Vector Byte 64) (option : Byte) (n first : Nat)
    (inPlane : first + n ≤ 128) :
    (option = 0 → (readCellRun read glyphs option n first).length = 3 * n) ∧
      (option = 1 → (readCellRun read glyphs option n first).length = n) ∧
      ∀ (a : Fin 128) (i : Nat), i < n → a.val = first + i →
        (option = 0 → ((readCellRun read glyphs option n first).drop (3 * i)).take 3 = recordBytes read[a]) ∧
        (option = 1 → (readCellRun read glyphs option n first)[i]? = some (patternOf read glyphs a)) := by
  have length := readCellRun_length read glyphs option n first inPlane
  refine ⟨fun records => ?_, fun patterns => ?_, fun a i inside at_ => ?_⟩
  · rw [length, if_pos records]
  · rw [length, if_neg (by rw [patterns]; decide), Nat.one_mul]
  · have entry := readCellRun_entry read glyphs option n first i inPlane inside a at_
    refine ⟨fun records => ?_, fun patterns => ?_⟩
    · rw [if_pos records] at entry
      rw [entry]
      exact if_pos records
    · have notRecords : ¬option = 0 := by rw [patterns]; decide
      rw [if_neg notRecords, Nat.one_mul, show readCell read glyphs option a = _ from if_neg notRecords] at entry
      have head := congrArg List.head? entry
      rw [List.head?_take, List.head?_drop] at head
      exact head

/-- Settles O29, by the plane and the ranges. -/
theorem readCellsReadsOnePlane : Obligations.ReadCellsReadsOnePlane := by
  intro s p plane first count option code params offered inRange
  have serve : ownerOf (.readCells plane first count option) s = State.serveReadCells plane first count option s := rfl
  unfold State.serveReadCells at serve
  refine ⟨fun outside => exec_refused offered ?_, fun inside pending invalid => exec_refused offered ?_,
    fun read inside draft shown pending => ?_⟩
  · rw [serve]
    cases isPlane : s.cells.planeOf plane with
    | none => rfl
    | some _ =>
      refine if_neg fun h => outside ⟨?_, h.1, h.2.2.1, h.2.2.2.1, by omega⟩
      by_contra large
      rw [planeOf_none (Nat.lt_of_not_le large)] at isPlane
      cases isPlane
  · rw [serve, pending]
    refine (if_pos ?_).trans (if_pos ⟨rfl, invalid⟩)
    obtain ⟨_, option_, low, high, fits⟩ := inside
    exact ⟨option_, by omega, low, high, by omega⟩
  · obtain ⟨legalPlane, option_, low, high, fits⟩ := inside
    have isRead : s.cells.planeOf plane = some read := by
      rcases plane_cases plane legalPlane with rfl | rfl | rfl
      · exact congrArg some (draft rfl).symm
      · exact congrArg some (pending rfl).2.symm
      · exact congrArg some (shown rfl).symm
    refine ⟨readCellRun read s.tables.glyph.active option count.toNat first.toNat, exec_served offered ?_,
      readCellRun_reads read s.tables.glyph.active option count.toNat first.toNat fits⟩
    rw [serve, isRead]
    refine (if_pos ⟨option_, by omega, low, high, by omega⟩).trans (if_neg fun h => ?_)
    exact Bool.noConfusion ((pending h.1).1.symm.trans h.2)

/-- Settles O30: the owner's reply says what it superseded. -/
theorem commitFillsThePendingPlane : Obligations.CommitFillsThePendingPlane := by
  intro s p tag code params offered
  refine exec_served offered (congrArg (served _) ?_)
  unfold State.superseded flagByte
  cases s.cells.pendingValid <;> rfl

end Sys2Proof.Machine
end

section
/-! The requests of the Table Store (R51 to R55), the Event Queue (R107, R110, R111) and the Tone Unit (R135 to R140). -/

namespace Sys2Proof.Machine

/-! ## The tables in id order -/

theorem allTables_split (table : Table) :
    allTables = allTables.take (tableId table) ++ table :: allTables.drop (tableId table + 1) ∧
      ∀ other ∈ allTables.take (tableId table), tableId other < tableId table := by
  cases table <;> decide

/-- A search among the tables of a set finds the lowest that answers. -/
theorem find_lowest {set : BitVec 7} {q : Table → Bool} {table : Table} (named : inSet set table = true)
    (holds : q table = true) (lower : ∀ other, tableId other < tableId table → ¬(inSet set other = true ∧ q other = true)) :
    (tablesOf set).find? q = some table := by
  obtain ⟨split, below⟩ := allTables_split table
  have none_ : ((allTables.take (tableId table)).filter (inSet set)).find? q = none :=
    List.find?_eq_none.mpr fun other mem answers => by
      obtain ⟨inList, inSet_⟩ := List.mem_filter.mp mem
      exact lower other (below other inList) ⟨inSet_, answers⟩
  unfold tablesOf
  rw [split, List.filter_append, List.find?_append, none_, List.filter_cons_of_pos named, List.find?_cons_of_pos holds]
  rfl

theorem pendingIn_lowest {t : TableStore} {set : BitVec 7} {table : Table} (named : inSet set table = true)
    (pending : inSet t.pendingSet table = true)
    (lower : ∀ other, tableId other < tableId table → ¬(inSet set other = true ∧ inSet t.pendingSet other = true)) :
    t.pendingIn set = some table := find_lowest named pending lower

theorem inSet_ne_zero {set : BitVec 7} {table : Table} (named : inSet set table = true) : set ≠ 0 := by
  rintro rfl
  exact Bool.noConfusion ((inSet_zero table).symm.trans named)

/-- No table of a set is pending when the two sets share none. -/
theorem pendingIn_disjoint {t : TableStore} {set : BitVec 7} (disjoint : set &&& t.pendingSet = 0) :
    t.pendingIn set = none := by
  refine (pendingIn_none t set).mpr fun table named => ?_
  have both : inSet (set &&& t.pendingSet) table = false := by rw [disjoint]; exact inSet_zero table
  unfold inSet at both named ⊢
  rw [BitVec.getLsbD_and, named, Bool.true_and] at both
  exact both

/-- R56: the failure found is the first entry, of the first table, that fails. -/
theorem failureIn_first {t : TableStore} {before behind : List Table} {table : Table} {entry : Nat}
    (passes : ∀ other ∈ before, t.passes false other) (fails : t.firstFailure false table = some entry) :
    t.failureIn (before ++ table :: behind) = some (table, entry) := by
  induction before with
  | nil =>
    rw [List.nil_append, TableStore.failureIn]
    simp only [fails]
  | cons other rest ih =>
    rw [List.cons_append, TableStore.failureIn]
    simp only [(firstFailure_none t false other).mpr (passes other (List.mem_cons_self ..))]
    exact ih fun other mem => passes other (List.mem_cons_of_mem _ mem)

/-- Settles O33: the checks of TABLE_ACTIVATE in their order. -/
theorem tableActivateMakesPending : Obligations.TableActivateMakesPending := by
  intro s p set code params offered
  have serve : ownerOf (.tableActivate set) s = State.serveTableActivate set s := rfl
  unfold State.serveTableActivate at serve
  refine ⟨fun empty => exec_refused offered ?_, fun table named pending lower => exec_refused offered ?_,
    fun disjoint table entry named inTable fails first others => exec_refused offered ?_,
    fun some_ disjoint pass => exec_served offered ?_⟩
  · rw [serve]
    exact if_pos empty
  · rw [serve, if_neg (inSet_ne_zero named), pendingIn_lowest named pending lower]
    rfl
  · have isFirst : s.tables.firstFailure false table = some entry :=
      List.find?_range_eq_some.mpr ⟨fails, List.mem_range.mpr inTable, fun i below => by rw [first i below]; rfl⟩
    obtain ⟨split, below⟩ := allTables_split table
    have found : s.tables.failureIn (tablesOf set) = some (table, entry) := by
      unfold tablesOf
      rw [split, List.filter_append, List.filter_cons_of_pos named]
      refine failureIn_first (fun other mem => ?_) isFirst
      obtain ⟨inList, inSet_⟩ := List.mem_filter.mp mem
      exact others other inSet_ (below other inList)
    rw [serve, if_neg (inSet_ne_zero named), pendingIn_disjoint disjoint, found]
    simp only [natBytes, hiByte_count, loByte_count]
    rfl
  · rw [serve, if_neg some_, pendingIn_disjoint disjoint,
      (failureIn_none _ _).mpr fun table mem => pass table ((mem_tablesOf set table).mp mem)]
    rfl

/-! ## TABLE_LOAD, TABLE_READ and TABLE_ABANDON -/

theorem bytes_length (t : TableStore) (active : Bool) (table : Table) :
    (t.bytes active table).length = tableEntries table * tableEntryBytes table := by
  cases table <;> exact Vector.length_toList

theorem tableEntryBytes_pos (table : Table) : 0 < tableEntryBytes table := by cases table <;> decide

/-- Settles O32, by the table and the ranges. -/
theorem tableReadReturnsOneCopy : Obligations.TableReadReturnsOneCopy := by
  intro s p id copy first count code params offered
  have serve : ownerOf (.tableRead id copy first count) s = State.serveTableRead id copy first count s := rfl
  unfold State.serveTableRead at serve
  refine ⟨fun large => exec_refused offered ?_, ?_⟩
  · rw [serve, tableOfByte_none large]
  · intro table names size inRange
    rw [names] at serve
    refine ⟨fun outside => exec_refused offered (serve.trans (if_neg outside)),
      fun inside => exec_served offered (serve.trans (if_pos inside))⟩

theorem tableLoad_writesStaging : Claim.TableLoadWritesStaging := by
  intro s p id first entries code params offered
  have serve : ownerOf (.tableLoad id first entries) s = State.serveTableLoad id first entries s := rfl
  unfold State.serveTableLoad at serve
  refine ⟨fun large => exec_refused offered ?_, ?_⟩
  · rw [serve, tableOfByte_none large]
  · intro table names size
    rw [names] at serve
    simp only at serve
    unfold State.loadTable at serve
    have positive : 0 < size := tableEntryBytes_pos table
    refine ⟨fun pending => exec_refused offered (serve.trans (if_pos pending)), fun settled bad => exec_refused offered ?_,
      fun settled some_ whole fits => ?_⟩
    · rw [serve, if_neg (by rw [settled]; decide)]
      refine if_neg fun ⟨whole, least, fits⟩ => ?_
      rcases bad with none_ | broken | long
      · rw [none_] at least
        exact absurd least (by simp)
      · exact broken whole
      · exact absurd fits (Nat.not_le.mpr long)
    · have least : 1 ≤ entries.length / size :=
        Nat.div_pos (Nat.le_of_dvd (List.length_pos_iff.mpr some_) (Nat.dvd_of_mod_eq_zero whole)) positive
      refine ⟨_, exec_served offered (serve.trans ((if_neg (by rw [settled]; decide)).trans (if_pos ⟨whole, least, fits⟩))),
        pendingSet_update .., fun other => ⟨bytes_load_active .., generation_load ..⟩,
        fun other differs => bytes_update_ne _ _ _ _ _ differs, ?_⟩
      have inTable : first.toNat * size + entries.length ≤ (s.tables.bytes false table).length := by
        rw [bytes_length, ← Nat.div_add_mod entries.length size, whole, Nat.add_zero, Nat.mul_comm size, ← Nat.add_mul]
        exact Nat.mul_le_mul_right _ fits
      rw [bytes_load_staging, overwrite_eq _ _ _ inTable]

theorem tableAbandon_restoresStaging : Claim.TableAbandonRestoresStaging := by
  intro s p set code params offered
  have serve : ownerOf (.tableAbandon set) s = State.serveTableAbandon set s := rfl
  unfold State.serveTableAbandon at serve
  refine ⟨fun empty => exec_refused offered (serve.trans (if_pos empty)),
    fun table named pending lower => exec_refused offered ?_, fun some_ disjoint => ?_⟩
  · rw [serve, if_neg (inSet_ne_zero named), pendingIn_lowest named pending lower]
    rfl
  · rw [if_neg some_, pendingIn_disjoint disjoint] at serve
    refine ⟨_, exec_served offered serve, rfl, fun table => ⟨?_, ?_, ?_⟩⟩
    · rw [bytes_abandonSet, ite_self]
    · rw [generation_updateSet, generation_abandon, ite_self]
    · rw [bytes_abandonSet]
      cases inSet set table <;> rfl

/-- Settles O34, by the copies each request writes. -/
theorem stagingIsLoadedAndAbandoned : Obligations.StagingIsLoadedAndAbandoned :=
  ⟨tableLoad_writesStaging, tableAbandon_restoresStaging⟩

/-! ## ACK_EVENTS and GO_BACK -/

theorem entriesAfter_skip {seq : Byte} {before behind : List Entry} (others : ∀ other ∈ before, other.seq ≠ seq) :
    entriesAfter seq (before ++ behind) = entriesAfter seq behind := by
  induction before with
  | nil => rfl
  | cons e rest ih =>
    rw [List.cons_append, entriesAfter, if_neg (others e (List.mem_cons_self ..))]
    exact ih fun other mem => others other (List.mem_cons_of_mem _ mem)

theorem entriesAfter_found {seq : Byte} {before rest : List Entry} {e : Entry} (isSeq : e.seq = seq)
    (others : ∀ other ∈ before, other.seq ≠ seq) :
    entriesAfter seq (before ++ e :: rest) = if e.isSent then some rest else none := by
  rw [entriesAfter_skip others, entriesAfter, if_pos isSeq]

theorem entriesAfter_absent {seq : Byte} {l : List Entry} (others : ∀ e ∈ l, e.seq ≠ seq) : entriesAfter seq l = none := by
  rw [← List.append_nil l, entriesAfter_skip others]
  rfl

theorem ack_removesThroughTheSentEntry : Claim.AckRemovesThroughTheSentEntry := by
  intro s p seq code params offered
  have serve : ownerOf (.ackEvents seq) s = State.serveAckEvents seq s := rfl
  unfold State.serveAckEvents at serve
  refine ⟨fun through e rest entries isSeq sent others => ?_, fun before e rest entries isSeq unsent others => ?_,
    fun others => ?_⟩
  · have removed : s.queue.entries.length - rest.length = through.length + 1 := by
      rw [entries, List.length_append, List.length_cons]
      omega
    rw [show entriesAfter seq s.queue.entries = some rest by
      rw [entries, entriesAfter_found isSeq others, if_pos sent]] at serve
    simp only [removed] at serve
    refine ⟨fun whole => exec_served offered ?_, fun lost => exec_served offered ?_⟩
    · have same : s.queue.acknowledge rest s.node.time = { s.queue with entries := rest } := if_pos whole
      rw [serve, same]
      rfl
    · have recorded : s.queue.acknowledge rest s.node.time =
          { entries := rest ++ [⟨s.queue.nextSeq, .lost, BitVec.ofNat 8 s.queue.pendingLoss, s.node.time, .unsent⟩]
            nextSeq := s.queue.nextSeq + 1
            pendingLoss := 0 } := if_neg lost
      rw [serve, recorded]
      simp only [List.length_append, List.length_singleton]
      rfl
  · rw [show entriesAfter seq s.queue.entries = none by
      rw [entries, entriesAfter_found isSeq others, if_neg (by rw [unsent]; decide)]] at serve
    exact exec_refused offered serve
  · rw [entriesAfter_absent others] at serve
    exact exec_refused offered serve

theorem goBack_unsendsEveryEntry : Claim.GoBackUnsendsEveryEntry := by
  intro s head rest age awake entries sent due
  have isDue := (goBackDue_iff s.queue (s.setting .resendAfter).toNat).mpr ⟨head, rest, age, entries, sent, due⟩
  refine congrArg Host.Outcome.next ((if_pos ⟨(gathers_iff s).mpr awake, isDue⟩).trans ?_)
  refine congrArg (fun l => s.withQueue (EventQueue.mk l s.queue.nextSeq s.queue.pendingLoss)) ((List.map_map ..).trans ?_)
  exact List.map_congr_left fun e _ => unsend_age e

/-- Settles O39, by where the seq stands and by the head's age. -/
theorem acknowledgedEntriesLeaveOthersReturn : Obligations.AcknowledgedEntriesLeaveOthersReturn :=
  ⟨ack_removesThroughTheSentEntry, goBack_unsendsEveryEntry⟩

/-! ## The tone channel (R135, R138 to R140) -/

theorem toneStart_claimsTheChannel : Claim.ToneStartClaimsTheChannel := by
  intro s p pattern code params offered
  refine ⟨fun large => exec_refused offered ?_, fun legal parked => exec_refused offered ?_,
    fun legal awake => exec_served offered ?_⟩
  · exact if_neg (by omega)
  · exact (if_pos legal).trans (if_pos parked)
  · exact (if_pos legal).trans (if_neg awake)

theorem toneStop_answersTheStateFound : Claim.ToneStopAnswersTheStateFound := by
  intro s p code params offered
  refine ⟨fun idle => ?_, fun play plays => ?_⟩
  · have same : s.withTone none = s := by rw [← idle]; rfl
    have stops := exec_served (t := s.withTone none) (data := [toneStateByte s.tone]) offered rfl
    rw [same, idle] at stops
    exact stops
  · have stops := exec_served (t := s.withTone none) (data := [toneStateByte s.tone]) offered rfl
    rw [plays] at stops
    exact stops

theorem plays_none {s : State} (idle : s.tone = none) (kind : ToneKind) : s.plays kind = false := by
  unfold State.plays
  rw [idle]

theorem plays_some {s : State} {play : Play} (plays : s.tone = some play) (kind : ToneKind) :
    s.plays kind = (play.kind == kind) := by
  unfold State.plays
  rw [plays]

theorem claims_arbitrated : Claim.ClaimsAreArbitrated := by
  intro s number click alert
  refine ⟨fun idle => ?_, fun play plays => ⟨fun kind => ?_, fun kind => ?_, fun kind => ?_⟩⟩
  · have quiet := plays_none idle
    exact ⟨if_neg (by rw [quiet, quiet]; decide), rfl, if_neg (by rw [quiet, quiet]; decide),
      if_neg (by rw [quiet]; decide)⟩
  all_goals
    have isKind := plays_some plays
    simp only [kind] at isKind
  · exact ⟨if_neg (by rw [isKind, isKind]; decide), rfl, if_neg (by rw [isKind, isKind]; decide),
      if_neg (by rw [isKind]; decide)⟩
  · exact ⟨if_pos (by rw [isKind, isKind]; decide), rfl, if_pos (by rw [isKind, isKind]; decide),
      if_neg (by rw [isKind]; decide)⟩
  · exact ⟨if_pos (by rw [isKind, isKind]; decide), if_pos (by rw [isKind, isKind]; decide),
      if_pos (by rw [isKind]; decide)⟩

/-- R135: the copy holds the 20 bytes of its entry. -/
theorem byteAt_toneCopy (table : Vector Byte 160) (q i : Nat) (inEntry : i < 20) :
    byteAt (toneCopy table q) i = byteAt table (20 * q + i) := by
  show ((List.range 20).map fun i => byteAt table (20 * q + i)).getD i 0 = _
  rw [List.getD_eq_getElem _ _ (by simpa using inEntry), List.getElem_map, List.getElem_range]

theorem plays_beginFromAFreshCopy : Claim.PlaysBeginFromAFreshCopy := by
  intro s kind number table legal play repeats on started
  have copied := byteAt_toneCopy table number.toNat
  have left : patternRepeats play.copy = repeats := congrArg BitVec.toNat (copied 3 (by decide))
  have first : patternOn play.copy 1 = on := congrArg (fun b : Byte => b.getLsbD 0) (copied 4 (by decide))
  refine ⟨rfl, rfl, copied, rfl, rfl, rfl, ?_, rfl, fun running => ⟨?_, ?_⟩⟩
  · rw [← left]
    rfl
  · show (!s.inReset && patternOn play.copy 1 && true) = on
    rw [running, first, Bool.and_true]
    rfl
  · show (!s.inReset && patternOn play.copy 1 && false) = false
    exact Bool.and_false _

/-- Settles O40, by the play in the channel. -/
theorem toneRequestsAndClaimsAreArbitrated : Obligations.ToneRequestsAndClaimsAreArbitrated :=
  ⟨plays_beginFromAFreshCopy, toneStart_claimsTheChannel, toneStop_answersTheStateFound, claims_arbitrated⟩

/-! ## Segments (R136, R137) -/

theorem halfPeriods_exchangeTheOutputs : Claim.HalfPeriodsExchangeTheOutputs := by
  intro s play plays running
  have toneP : s.toneP = (patternOn play.copy play.segment && play.pHigh) := by
    unfold State.toneP
    rw [plays, running]
    rfl
  have toneN : s.toneN = (patternOn play.copy play.segment && !play.pHigh) := by
    unfold State.toneN
    rw [plays, running]
    rfl
  refine ⟨fun on => ?_, fun off => ?_⟩
  · have swaps : exec .halfPeriodEnd s = .next (s.withTone (some play.swap)) := by
      refine congrArg Host.Outcome.next ?_
      unfold State.halfPeriodEnd
      rw [plays]
      exact if_pos on
    refine ⟨_, swaps, rfl, ?_, ?_, ?_⟩
    · show (!s.inReset && patternOn play.copy play.segment && !play.pHigh) = _
      rw [toneN, running]
      rfl
    · show (!s.inReset && patternOn play.copy play.segment && !!play.pHigh) = _
      rw [toneP, running, Bool.not_not]
      rfl
    · rw [toneP, toneN, on, Bool.true_and, Bool.true_and, Bool.not_not]
  · refine ⟨congrArg Host.Outcome.next ?_, ?_, ?_⟩
    · unfold State.halfPeriodEnd
      rw [plays]
      exact if_neg (by rw [show play.isOn = false from off]; decide)
    · rw [toneP, off, Bool.false_and]
    · rw [toneN, off, Bool.false_and]

theorem segmentsAndEnvelopes_end : Claim.SegmentsAndEnvelopesEnd := by
  intro s play plays length at_
  have ends : exec .segmentEnd s = .next (if play.segmentOver then s.withTone play.segmentEnd else s) := by
    refine congrArg Host.Outcome.next ?_
    unfold State.segmentEnd
    rw [plays]
  have lasted : play.segmentOver = true ↔ length ≤ play.segmentTime := decide_eq_true_iff
  refine ⟨fun early => ?_, fun late inside => ?_, fun late last => ?_⟩
  · rw [ends, if_neg (mt lasted.mp (Nat.not_le.mpr early))]
  · rw [ends, if_pos (lasted.mpr late)]
    unfold Play.segmentEnd
    rw [if_pos inside]
    rfl
  · have envelope : play.segmentEnd = play.envelopeEnd := if_neg (Nat.not_lt.mpr last)
    rw [ends, if_pos (lasted.mpr late), envelope]
    unfold Play.envelopeEnd
    refine ⟨fun unbounded => ?_, fun n some_ left => ?_, fun left => ?_⟩
    · rw [unbounded]
      simp only [Play.begin_, unbounded]
      rfl
    · rw [left]
      simp only
      rw [if_neg (by omega)]
      rfl
    · rw [left]
      rfl

/-- Settles O41, by the segment and the repeats left. -/
theorem playsAdvanceBySegments : Obligations.PlaysAdvanceBySegments :=
  ⟨halfPeriods_exchangeTheOutputs, segmentsAndEnvelopes_end⟩

end Sys2Proof.Machine
end

section
/-! Validation, table by table (R56 to R61). -/

namespace Sys2Proof.Machine

/-! ## The entry that is charged -/

theorem dimFails_iff (v : Vector Byte 16) (i : Nat) :
    dimFails v i = true ↔ 56 < (byteAt v i).toNat ∨ (1 ≤ i ∧ (byteAt v i).toNat < (byteAt v (i - 1)).toNat) := by
  unfold dimFails
  simp only [Bool.or_eq_true, Bool.and_eq_true, decide_eq_true_eq]

theorem keymapFails_iff (v : Vector Byte 256) (k : Nat) : keymapFails v k = true ↔ 127 < (keymapCode v k).toNat :=
  decide_eq_true_iff

/-- A segment line and a phase from a route entry's index, and back. -/
theorem routeIndex_parts {line phase : Nat} (lineLow : 1 ≤ line) (phaseLow : 1 ≤ phase) (phaseHigh : phase ≤ 8) :
    routeIndex line phase % 8 = phase - 1 ∧ routeIndex line phase / 8 + 1 = line := by
  unfold routeIndex
  omega

theorem routeIndex_lt {line phase : Nat} (lineLow : 1 ≤ line) (lineHigh : line ≤ 48) (phaseLow : 1 ≤ phase)
    (phaseHigh : phase ≤ 8) : routeIndex line phase < 384 := by
  unfold routeIndex
  omega

theorem routeIndex_surjective (i : Nat) : routeIndex (i / 8 + 1) (i % 8 + 1) = i := by
  unfold routeIndex
  omega

theorem routeFails_iff (v : Vector Byte 768) {line phase : Nat} (lineLow : 1 ≤ line) (phaseLow : 1 ≤ phase)
    (phaseHigh : phase ≤ 8) :
    routeFails v (routeIndex line phase) = true ↔
      (routeEntry v (routeIndex line phase)).kind = 3 ∨
        ((routeEntry v (routeIndex line phase)).static = true ∧ ¬(phase = 1 ∧ 17 ≤ line)) ∨
        ((routeEntry v (routeIndex line phase)).static = true ∧ phase = 1 ∧
          ∃ other, 2 ≤ other ∧ other ≤ 8 ∧ (routeEntry v (routeIndex line other)).kind ≠ 0) := by
  obtain ⟨isPhase, isLine⟩ := routeIndex_parts lineLow phaseLow phaseHigh
  have others : (∃ x < 7, ¬(routeEntry v (routeIndex line 1 + 1 + x)).kind = 0) ↔
      ∃ other, 2 ≤ other ∧ other ≤ 8 ∧ ¬(routeEntry v (routeIndex line other)).kind = 0 := by
    constructor
    · rintro ⟨x, below, routed⟩
      exact ⟨x + 2, by omega, by omega, by rwa [show routeIndex line (x + 2) = routeIndex line 1 + 1 + x by
        unfold routeIndex; omega]⟩
    · rintro ⟨other, low, high, routed⟩
      exact ⟨other - 2, by omega, by rwa [show routeIndex line 1 + 1 + (other - 2) = routeIndex line other by
        unfold routeIndex; omega]⟩
  unfold routeFails
  simp only [Bool.or_eq_true, Bool.and_eq_true, beq_iff_eq, bne_iff_ne, decide_eq_true_eq, List.any_eq_true,
    List.mem_range, isPhase, isLine, ne_eq]
  by_cases first : phase = 1
  · subst first
    rw [others]
    simp only [true_and, Nat.not_le, Nat.sub_self, not_true, false_or]
    rw [and_or_left]
  · have late : ¬phase - 1 = 0 := by omega
    simp only [first, late, false_and, not_false_eq_true, true_or, and_true, and_false, or_false]

theorem scanFails_zero (v : Vector Byte 34) :
    scanFails v 0 = true ↔ ¬(1 ≤ scanStepCount v ∧ scanStepCount v ≤ 16) := by
  unfold scanFails
  simp only [if_true, Bool.or_eq_true, decide_eq_true_eq]
  omega

theorem scanFails_step (v : Vector Byte 34) {j : Nat} (low : 1 ≤ j) :
    scanFails v j = true ↔ j ≤ scanStepCount v ∧
      (scanColumns v j = 0 ∨ ∃ i, 1 ≤ i ∧ i < j ∧ scanColumns v i &&& scanColumns v j ≠ 0) := by
  have earlier : (∃ x < j - 1, ¬scanColumns v (x + 1) &&& scanColumns v j = 0) ↔
      ∃ i, 1 ≤ i ∧ i < j ∧ ¬scanColumns v i &&& scanColumns v j = 0 := by
    constructor
    · rintro ⟨x, below, shares⟩
      exact ⟨x + 1, by omega, by omega, shares⟩
    · rintro ⟨i, positive, below, shares⟩
      exact ⟨i - 1, by omega, by rwa [Nat.sub_add_cancel positive]⟩
  unfold scanFails
  rw [if_neg (by omega)]
  simp only [Bool.or_eq_true, Bool.and_eq_true, beq_iff_eq, bne_iff_ne, decide_eq_true_eq, List.any_eq_true,
    List.mem_range, ne_eq, earlier]

theorem lightFails_zero (v : Vector Byte 34) : lightFails v 0 = true ↔ 15 < lightThresholds v := decide_eq_true_iff

theorem lightFails_low (v : Vector Byte 34) {i : Nat} (low : 1 ≤ i) (high : i ≤ 2) : ¬lightFails v i = true := by
  unfold lightFails
  rw [if_neg (by omega)]
  simp only [Bool.and_eq_true, decide_eq_true_eq]
  omega

theorem lightFails_threshold (v : Vector Byte 34) {j : Nat} (low : 2 ≤ j) :
    lightFails v (j + 1) = true ↔ j ≤ lightThresholds v ∧ lightThreshold v j ≤ lightThreshold v (j - 1) := by
  unfold lightFails
  rw [if_neg (by omega)]
  simp only [Bool.and_eq_true, decide_eq_true_eq, Nat.add_sub_cancel, Nat.add_le_add_iff_right]
  rw [show j + 1 - 2 = j - 1 by omega]
  exact ⟨fun h => ⟨h.1.2, h.2⟩, fun h => ⟨⟨by omega, h.1⟩, h.2⟩⟩

theorem patternFails_iff (p : Vector Byte 20) :
    patternFails p = true ↔ ¬(25 ≤ patternHalfPeriod p ∧ patternHalfPeriod p ≤ 2000) ∨
      ¬(1 ≤ patternSegments p ∧ patternSegments p ≤ 8) ∨
      ∃ j, 1 ≤ j ∧ j ≤ patternSegments p ∧ patternDuration p j = 0 := by
  have segments : (∃ x < patternSegments p, patternDuration p (x + 1) = 0) ↔
      ∃ j, 1 ≤ j ∧ j ≤ patternSegments p ∧ patternDuration p j = 0 := by
    constructor
    · rintro ⟨x, below, empty⟩
      exact ⟨x + 1, by omega, by omega, empty⟩
    · rintro ⟨j, low, high, empty⟩
      exact ⟨j - 1, by omega, by rwa [Nat.sub_add_cancel low]⟩
  unfold patternFails
  have half : ¬(25 ≤ patternHalfPeriod p ∧ patternHalfPeriod p ≤ 2000) ↔
      patternHalfPeriod p < 25 ∨ 2000 < patternHalfPeriod p := by omega
  have count : ¬(1 ≤ patternSegments p ∧ patternSegments p ≤ 8) ↔ patternSegments p < 1 ∨ 8 < patternSegments p := by
    omega
  simp only [Bool.or_eq_true, decide_eq_true_eq, List.any_eq_true, List.mem_range, beq_iff_eq, segments, half, count,
    or_assoc]

theorem failures_chargedToTheirEntry : Claim.FailuresAreChargedToTheirEntry := by
  intro t active fails scan light
  exact ⟨fun _ => nofun, fun i _ => dimFails_iff _ i, fun k _ => keymapFails_iff _ k,
    fun line phase lineLow _ phaseLow phaseHigh => routeFails_iff _ lineLow phaseLow phaseHigh,
    scanFails_zero scan, fun j low _ => scanFails_step scan low, lightFails_zero light,
    lightFails_low light (by decide) (by decide), lightFails_low light (by decide) (by decide),
    fun j low _ => lightFails_threshold light low, fun q _ => patternFails_iff _⟩

/-! ## The copies that pass -/

theorem passes_iff (t : TableStore) (active : Bool) (table : Table) :
    t.passes active table ↔ ∀ i < tableEntries table, ¬t.entryFails active table i = true := by
  unfold TableStore.passes
  simp only [Bool.not_eq_true]

theorem route_passes (t : TableStore) (active : Bool) :
    t.passes active .route ↔ ∀ line phase, 1 ≤ line → line ≤ 48 → 1 ≤ phase → phase ≤ 8 →
      ¬routeFails (t.route.copy active) (routeIndex line phase) = true := by
  rw [passes_iff]
  constructor
  · exact fun pass line phase lineLow lineHigh phaseLow phaseHigh =>
      pass _ (routeIndex_lt lineLow lineHigh phaseLow phaseHigh)
  · intro pass i inTable
    have inRoute : i < 384 := inTable
    rw [← routeIndex_surjective i]
    exact pass _ _ (by omega) (by omega) (by omega) (by omega)

theorem copies_passByTheirTable : Claim.CopiesPassByTheirTable := by
  intro t active
  refine ⟨fun _ _ => rfl, ?_, ?_, ?_, ?_, ?_, ?_⟩
  · rw [passes_iff]
    refine forall₂_congr fun i _ => (not_congr (dimFails_iff _ i)).trans ?_
    omega
  · rw [passes_iff]
    exact forall₂_congr fun k _ => (not_congr (keymapFails_iff _ k)).trans Nat.not_lt
  · rw [route_passes]
    refine forall₂_congr fun line phase => forall₄_congr fun lineLow _ phaseLow phaseHigh => ?_
    rw [routeFails_iff _ lineLow phaseLow phaseHigh]
    constructor
    · intro pass
      refine ⟨fun kind => pass (.inl kind), fun static => ?_⟩
      obtain ⟨first, wide⟩ := not_not.mp fun elsewhere => pass (.inr (.inl ⟨static, elsewhere⟩))
      exact ⟨first, wide, fun other low high => not_not.mp fun routed =>
        pass (.inr (.inr ⟨static, first, other, low, high, routed⟩))⟩
    · rintro ⟨kind, static⟩ (bad | ⟨isStatic, elsewhere⟩ | ⟨isStatic, _, other, low, high, routed⟩)
      · exact kind bad
      · exact elsewhere ⟨(static isStatic).1, (static isStatic).2.1⟩
      · exact routed ((static isStatic).2.2 other low high)
  · rw [passes_iff]
    constructor
    · intro pass
      have count := not_not.mp (mt (scanFails_zero _).mpr (pass 0 (by decide)))
      refine ⟨count.1, count.2, fun j low high => ?_⟩
      have step := mt (scanFails_step _ low).mpr (pass j (show j < 17 by omega))
      exact ⟨fun none_ => step ⟨high, .inl none_⟩, fun i positive below => not_not.mp fun shares =>
        step ⟨high, .inr ⟨i, positive, below, shares⟩⟩⟩
    · rintro ⟨least, most, steps⟩ i _ fails
      by_cases zero : i = 0
      · subst zero
        exact (scanFails_zero _).mp fails ⟨least, most⟩
      · obtain ⟨inside, none_ | ⟨j, positive, below, shares⟩⟩ := (scanFails_step _ (by omega)).mp fails
        · exact (steps i (by omega) inside).1 none_
        · exact shares ((steps i (by omega) inside).2 j positive below)
  · rw [passes_iff]
    constructor
    · intro pass
      have count := Nat.not_lt.mp (mt (lightFails_zero _).mpr (pass 0 (by decide)))
      refine ⟨count, fun j low high => Nat.not_le.mp fun falls => ?_⟩
      exact pass (j + 1) (show j + 1 < 17 by omega) ((lightFails_threshold _ low).mpr ⟨high, falls⟩)
    · rintro ⟨most, ascend⟩ i _ fails
      rcases Nat.lt_or_ge i 3 with low | high
      · rcases Nat.eq_zero_or_pos i with rfl | positive
        · exact absurd ((lightFails_zero _).mp fails) (Nat.not_lt.mpr most)
        · exact lightFails_low _ positive (by omega) fails
      · obtain ⟨j, rfl⟩ : ∃ j, i = j + 1 := ⟨i - 1, by omega⟩
        obtain ⟨inside, falls⟩ := (lightFails_threshold _ (by omega)).mp fails
        exact absurd (ascend j (by omega) inside) (Nat.not_lt.mpr falls)
  · rw [passes_iff]
    refine forall₂_congr fun q _ => (not_congr (patternFails_iff _)).trans ?_
    constructor
    · intro pass
      obtain ⟨halfLow, halfHigh⟩ := not_not.mp fun bad => pass (.inl bad)
      obtain ⟨countLow, countHigh⟩ := not_not.mp fun bad => pass (.inr (.inl bad))
      exact ⟨halfLow, halfHigh, countLow, countHigh, fun j low high => Nat.pos_of_ne_zero fun empty =>
        pass (.inr (.inr ⟨j, low, high, empty⟩))⟩
    · rintro ⟨halfLow, halfHigh, countLow, countHigh, lasts⟩ (bad | bad | ⟨j, low, high, empty⟩)
      · exact bad ⟨halfLow, halfHigh⟩
      · exact bad ⟨countLow, countHigh⟩
      · exact absurd (lasts j low high) (by omega)

/-- Settles O35, entry by entry. -/
theorem validCopiesAreTheLegalOnes : Obligations.ValidCopiesAreTheLegalOnes :=
  ⟨copies_passByTheirTable, failures_chargedToTheirEntry⟩

end Sys2Proof.Machine
end

section
/-! The Key Scanner's samples: one key's sample by its debounce record and press record, a whole sample in FULL, the
any-key sample in WAKE, and the single happenings of a sample. -/

namespace Sys2Proof.Machine

/-! ## Debouncing -/

theorem sample_same (d : Debounce) (closed : Bool) (threshold : Nat) (same : closed = d.down) :
    d.sample closed threshold = ⟨d.down, 0⟩ := if_pos same

theorem sample_turned (d : Debounce) (closed : Bool) (threshold : Nat) (differs : closed ≠ d.down)
    (reached : threshold ≤ d.count + 1) : d.sample closed threshold = ⟨closed, 0⟩ := by
  unfold Debounce.sample
  rw [if_neg differs, if_pos reached, Bool.eq_not_of_ne differs]

theorem sample_counted (d : Debounce) (closed : Bool) (threshold : Nat) (differs : closed ≠ d.down)
    (below : d.count + 1 < threshold) : d.sample closed threshold = ⟨d.down, d.count + 1⟩ := by
  unfold Debounce.sample
  rw [if_neg differs, if_neg (by omega)]

theorem turns_iff (d : Debounce) (closed : Bool) (threshold : Nat) :
    d.turns closed threshold = true ↔ closed ≠ d.down ∧ threshold ≤ d.count + 1 := by
  simp [Debounce.turns]

/-- A sample turns a record exactly when it changes its level. -/
theorem turns_iff_sample_down (d : Debounce) (closed : Bool) (threshold : Nat) :
    d.turns closed threshold = true ↔ (d.sample closed threshold).down ≠ d.down := by
  rw [turns_iff]
  by_cases same : closed = d.down
  · simp [sample_same, same]
  · by_cases reached : threshold ≤ d.count + 1
    · simp [sample_turned, same, reached]
    · simp [sample_counted d closed threshold same (by omega), reached]

theorem samples_areDebounced : Claim.SamplesAreDebounced := fun d closed threshold =>
  ⟨sample_same d closed threshold, sample_turned d closed threshold, sample_counted d closed threshold⟩

/-! ## One key's sample -/

theorem becomeDown_pressed (s : State) (k : Fin 128) : s.becomeDown k = Claim.pressed s k := by
  unfold State.becomeDown State.pressClick
  have clicks : ((((s.putKey k ⟨⟨true, 0⟩, some (s.newPress k)⟩).reportDown (s.newPress k)).pressSilence
      (s.newPress k)).clicks (s.newPress k) = true) =
      ((s.newPress k).enabled = true ∧ s.setting .clickPattern ≠ 255 ∧
        (s.node.state = .online ∨ s.node.state = .standalone)) := by
    rw [pressSilence_frame, reportDown_frame]
    simp [State.clicks, State.setting, State.putKey, and_assoc]
  have pattern : (((s.putKey k ⟨⟨true, 0⟩, some (s.newPress k)⟩).reportDown (s.newPress k)).pressSilence
      (s.newPress k)).setting .clickPattern = s.setting .clickPattern := by
    rw [pressSilence_frame, reportDown_frame]; rfl
  rw [pattern]
  exact if_congr (Iff.of_eq clicks) rfl rfl

theorem becomeUp_released (s : State) (k : Fin 128) (press : PressRecord) (held : (s.key k).press = some press) :
    s.becomeUp k = Claim.released s k press := by
  unfold State.becomeUp
  rw [held]
  exact if_congr Bool.and_eq_true_iff rfl rfl

/-- R82: when a repeat of a press is due. -/
theorem repeatDue_iff (s : State) (press : PressRecord) :
    s.repeatDue press = true ↔ press.enabled = true ∧ press.repeats = true ∧
      ((press.gap = none ∧ (s.setting .repeatDelay).toNat * 10 ≤ press.held) ∨
        ∃ gap, press.gap = some gap ∧ (s.setting .repeatInterval).toNat * 10 ≤ gap) := by
  unfold State.repeatDue
  cases press.gap <;> simp [and_assoc]

theorem sampleKey_turned (s : State) (k : Fin 128) (closed : Bool)
    (turns : (s.key k).debounce.turns closed (s.threshold (s.key k).debounce.down) = true) :
    s.sampleKey k closed = if closed then s.becomeDown k else s.becomeUp k := if_pos turns

theorem sampleKey_up (s : State) (k : Fin 128) (closed : Bool) (up : (s.key k).debounce.down = false)
    (stays : ¬(s.key k).debounce.turns closed (s.threshold (s.key k).debounce.down) = true) :
    s.sampleKey k closed =
      s.putKey k ⟨(s.key k).debounce.sample closed (s.threshold (s.key k).debounce.down), (s.key k).press⟩ :=
  (if_neg stays).trans (if_neg (by rw [up]; decide))

theorem sampleKey_held (s : State) (k : Fin 128) (closed : Bool) (press : PressRecord)
    (down : (s.key k).debounce.down = true) (held : (s.key k).press = some press)
    (stays : ¬(s.key k).debounce.turns closed (s.threshold (s.key k).debounce.down) = true) :
    s.sampleKey k closed =
      let next := (s.key k).debounce.sample closed (s.threshold (s.key k).debounce.down)
      if s.repeatDue press then (s.putKey k ⟨next, some { press with gap := some 0 }⟩).submit .keyRepeat press.code
      else s.putKey k ⟨next, some press⟩ := by
  refine ((if_neg stays).trans (if_pos down)).trans ?_
  unfold State.holdKey
  rw [held]

theorem one_keysSampleActs : Claim.OneKeysSampleActs := by
  intro s k closed d next due
  have turns : d.turns closed (s.threshold d.down) = true ↔ next.down ≠ d.down := turns_iff_sample_down _ _ _
  have towards : ∀ turned, d.turns closed (s.threshold d.down) = turned → turned = true → closed = !d.down :=
    fun _ h turned => Bool.eq_not_of_ne ((turns_iff d closed _).mp (h.trans turned)).1
  refine ⟨fun up nextDown => ?_, fun up nextUp => ?_, fun press down held => ?_⟩
  · have turned := turns.mpr (by rw [up, nextDown]; decide)
    rw [sampleKey_turned s k closed turned, towards _ rfl turned, up]
    exact becomeDown_pressed s k
  · exact sampleKey_up s k closed up fun turned => turns.mp turned (nextUp.trans up.symm)
  · have acts := fun nextDown : next.down = true =>
      sampleKey_held s k closed press down held fun turned => turns.mp turned (nextDown.trans down.symm)
    refine ⟨fun nextUp => ?_,
      fun nextDown isDue => (acts nextDown).trans (if_pos ((repeatDue_iff s press).mpr isDue)),
      fun nextDown notDue => (acts nextDown).trans (if_neg fun isDue => notDue ((repeatDue_iff s press).mp isDue))⟩
    have turned := turns.mpr (by rw [down, nextUp]; decide)
    rw [sampleKey_turned s k closed turned, towards _ rfl turned, down]
    exact becomeUp_released s k press held

/-! ## A whole sample -/

theorem execKeySample_of_senses {s : State} {returns : Byte} (running : s.inReset = false)
    (sense : s.drive.window = .sense) :
    exec (.keySample returns) s = .next (s.takeSample s.scanDrive returns).endWindow := by
  have senses : s.senses = true := by simp [State.senses, running, sense]
  exact congrArg Host.Outcome.next (if_pos senses)

theorem takeSample_full {s : State} (full : s.scanner.mode = .full) (columns : Half) (returns : Byte) :
    s.takeSample columns returns = (s.sampleKeys columns returns).advanceStep := by
  unfold State.takeSample; rw [full]

theorem takeSample_wake {s : State} (wake : s.scanner.mode = .wake) (columns : Half) (returns : Byte) :
    s.takeSample columns returns = s.sampleAnyKey (returns != 0) := by
  unfold State.takeSample; rw [wake]

theorem takeSample_off {s : State} (off : s.scanner.mode = .off) (columns : Half) (returns : Byte) :
    s.takeSample columns returns = s := by
  unfold State.takeSample; rw [off]

theorem sampleKey_step (s : State) (k : Fin 128) (closed : Bool) :
    (s.sampleKey k closed).scanner.step = s.scanner.step := by
  obtain ⟨r, h⟩ := sampleKey_scanner s k closed
  rw [h]; rfl

/-- A run of samples leaves the effective mode and the step position. -/
theorem foldl_sampleIn_mode (s : State) (columns : Half) (returns : Byte) (l : List (Fin 128)) :
    (l.foldl (State.sampleIn columns returns) s).scanner.mode = s.scanner.mode ∧
      (l.foldl (State.sampleIn columns returns) s).scanner.step = s.scanner.step := by
  induction l generalizing s with
  | nil => exact ⟨rfl, rfl⟩
  | cons k rest ih =>
    obtain ⟨mode, step⟩ := ih (s.sampleIn columns returns k)
    rw [List.foldl_cons, mode, step]
    unfold State.sampleIn
    split
    · exact ⟨sampleKey_mode s k _, sampleKey_step s k _⟩
    · exact ⟨rfl, rfl⟩

theorem sampleKeys_mode (s : State) (columns : Half) (returns : Byte) :
    (s.sampleKeys columns returns).scanner.mode = s.scanner.mode ∧
      (s.sampleKeys columns returns).scanner.step = s.scanner.step := foldl_sampleIn_mode ..

/-- What a sample in FULL leaves: all but the scanner, the queue and the tone channel. -/
theorem advanceStep_sampleKeys (s : State) (columns : Half) (returns : Byte) :
    (s.sampleKeys columns returns).advanceStep =
      (s.sampleKeys columns returns).withScanner
        { (s.sampleKeys columns returns).scanner with
          step := if s.scanner.step < scanStepCount s.tables.scan.active then s.scanner.step + 1 else 1 } := by
  have tables : (s.sampleKeys columns returns).tables = s.tables := by
    obtain ⟨scanner, queue, tone, h⟩ := sampleKeys_frame s columns returns
    rw [h]; rfl
  unfold State.advanceStep
  rw [(sampleKeys_mode s columns returns).2, tables]

/-- A sample in a mode other than WAKE leaves Node Control and the Light Sense Unit. -/
theorem takeSample_leaves (s : State) (columns : Half) (returns : Byte) (notWake : s.scanner.mode ≠ .wake) :
    (s.takeSample columns returns).node = s.node ∧ (s.takeSample columns returns).light = s.light := by
  unfold State.takeSample
  split
  · exact ⟨rfl, rfl⟩
  · obtain ⟨scanner, queue, tone, h⟩ := sampleKeys_frame s columns returns
    rw [h]
    exact ⟨rfl, rfl⟩
  · next wake => exact absurd wake notWake

theorem fullSamples_takeKeysInOrder : Claim.FullSamplesTakeKeysInOrder := by
  intro s returns running sense full driven sampled
  have order : sampled = s.sampleKeys s.scanDrive returns := List.foldl_filter ..
  have drive : sampled.drive = s.drive := by
    obtain ⟨scanner, queue, tone, h⟩ := sampleKeys_frame s s.scanDrive returns
    rw [order, h]; rfl
  rw [execKeySample_of_senses running sense, takeSample_full full, advanceStep_sampleKeys, ← order, ← drive]
  rfl

/-- One key's sample debounces that key and leaves the other keys. -/
theorem sampleKey_debounce (s : State) (k : Fin 128) (closed : Bool) :
    ((s.sampleKey k closed).key k).debounce =
      (s.key k).debounce.sample closed (s.threshold (s.key k).debounce.down) := by
  by_cases turned : (s.key k).debounce.turns closed (s.threshold (s.key k).debounce.down) = true
  · obtain ⟨differs, reached⟩ := (turns_iff _ _ _).mp turned
    rw [sampleKey_turned s k closed turned, sample_turned _ _ _ differs reached]
    unfold State.key
    cases closed with
    | true =>
      rw [if_pos rfl, becomeDown_scanner]
      exact congrArg KeyRecord.debounce ((putKey_key s k k _).trans (if_pos rfl))
    | false =>
      rw [if_neg (by decide), becomeUp_scanner]
      exact congrArg KeyRecord.debounce ((putKey_key s k k _).trans (if_pos rfl))
  · have put : ∀ r, ((s.putKey k r).key k) = r := fun r => (putKey_key s k k r).trans (if_pos rfl)
    unfold State.sampleKey State.holdKey
    simp only [turned, Bool.false_eq_true, if_false]
    split
    · split
      · rw [put]
      · split
        · rw [submit_frame]; exact congrArg KeyRecord.debounce (put _)
        · rw [put]
    · rw [put]

theorem sampleKey_other (s : State) (k j : Fin 128) (closed : Bool) (other : j ≠ k) :
    (s.sampleKey k closed).key j = s.key j := by
  obtain ⟨r, h⟩ := sampleKey_scanner s k closed
  unfold State.key
  rw [h]
  exact (putKey_key s k j r).trans (if_neg other)

theorem sampleKey_threshold (s : State) (k : Fin 128) (closed down : Bool) :
    (s.sampleKey k closed).threshold down = s.threshold down := by
  rw [sampleKey_frame]; rfl

/-- A run of samples leaves the keys that are not in it, and those of the columns not driven. -/
theorem foldl_sampleIn_other (s : State) (columns : Half) (returns : Byte) (l : List (Fin 128)) (j : Fin 128)
    (other : j ∈ l → columns.getLsbD (keyColumn j) = false) :
    (l.foldl (State.sampleIn columns returns) s).key j = s.key j := by
  induction l generalizing s with
  | nil => rfl
  | cons k rest ih =>
    rw [List.foldl_cons, ih _ fun m => other (List.mem_cons_of_mem _ m)]
    unfold State.sampleIn
    split
    · next driven =>
      refine sampleKey_other s k j _ fun same => ?_
      have dark := other (same ▸ List.mem_cons_self)
      rw [same, driven] at dark
      cases dark
    · rfl

/-- A run of samples debounces each driven key in it once. -/
theorem foldl_sampleIn_debounce (s : State) (columns : Half) (returns : Byte) (l : List (Fin 128)) (once : l.Nodup)
    (j : Fin 128) (inRun : j ∈ l) (driven : columns.getLsbD (keyColumn j) = true) :
    ((l.foldl (State.sampleIn columns returns) s).key j).debounce =
      (s.key j).debounce.sample (returns.getLsbD (keyReturn j)) (s.threshold (s.key j).debounce.down) := by
  induction l generalizing s with
  | nil => cases inRun
  | cons k rest ih =>
    obtain ⟨absent, onceRest⟩ := List.nodup_cons.mp once
    rw [List.foldl_cons]
    rcases List.mem_cons.mp inRun with same | later
    · subst same
      rw [foldl_sampleIn_other _ columns returns rest j fun m => absurd m absent]
      unfold State.sampleIn
      rw [if_pos driven]
      exact sampleKey_debounce s j _
    · have other : j ≠ k := fun same => absent (same ▸ later)
      rw [ih _ onceRest later]
      unfold State.sampleIn
      split
      · rw [sampleKey_other s k j _ other, sampleKey_threshold]
      · rfl

theorem key_atStep (s : State) (k : Fin 128) (step : Nat) :
    ((s.withScanner { s.scanner with step := step }).endWindow).key k = s.key k := rfl

theorem fullSamples_reachTheDrivenKeys : Claim.FullSamplesReachTheDrivenKeys := by
  intro s returns running sense full
  refine ⟨_, execKeySample_of_senses running sense, ?_⟩
  rw [takeSample_full full, advanceStep_sampleKeys]
  refine ⟨fun k dark => ?_, fun k driven => ?_, rfl, (sampleKeys_mode s _ _).1.trans full, ?_⟩
  · rw [key_atStep]
    exact foldl_sampleIn_other s _ returns _ k fun _ => dark
  · rw [key_atStep]
    exact foldl_sampleIn_debounce s _ returns _ (List.nodup_finRange 128) k (List.mem_finRange k) driven
  · obtain ⟨_, _, settings, cells, tables, drive, relay, engine, pending⟩ := takeSample_keeps s s.scanDrive returns
    obtain ⟨node, light⟩ := takeSample_leaves s s.scanDrive returns (by rw [full]; decide)
    rw [takeSample_full full, advanceStep_sampleKeys] at settings cells tables drive relay engine pending node light
    exact ⟨congrArg (fun d => ({ d with window := .ended } : Drive)) drive, node, cells, tables, settings, relay,
      engine, light, pending⟩

/-- Settles O52: one key's sample by its branches, a sample as the samples of the driven keys in turn, and each key of
the run sampled once. -/
theorem fullSamplesDebounceTheDrivenKeys : Obligations.FullSamplesDebounceTheDrivenKeys :=
  ⟨samples_areDebounced, fullSamples_reachTheDrivenKeys, fullSamples_takeKeysInOrder, one_keysSampleActs⟩

/-! ## The any-key sample -/

theorem beginMeasurement_light (s : State) (online : s.node.state = .online) :
    s.beginMeasurement = s.withLight
      (if s.setting .lightMode = 0 then s.light.stop else s.light.start (s.setting .lightMode)) := by
  unfold State.beginMeasurement State.lightRuns
  rw [online]
  by_cases off : s.setting .lightMode = 0 <;> simp [off]

/-- R89, R156: a wake report of a QUIESCENT node. -/
theorem reportWake_quiescent (s : State) (quiescent : s.node.state = .quiescent) :
    s.reportWake =
      ((s.withNode { s.node with state := .online, silence := 0 }).withLight
        (if s.setting .lightMode = 0 then s.light.stop else s.light.start (s.setting .lightMode))).withQueue
          (s.queue.take .wakeKey 0 s.node.time) := by
  unfold State.reportWake State.wakeNode
  rw [if_pos quiescent, beginMeasurement_light _ rfl]
  rfl

theorem sampleAnyKey_wakes (s : State) (d : Debounce) (any : s.scanner.anyKey = some d)
    (turns : d.turns true (s.threshold d.down) = true) : s.sampleAnyKey true = (s.putAnyKey ⟨true, 0⟩).reportWake := by
  unfold State.sampleAnyKey
  simp only [any, turns]
  rfl

theorem sampleAnyKey_watches (s : State) (d : Debounce) (closed : Bool) (any : s.scanner.anyKey = some d)
    (stays : (d.turns closed (s.threshold d.down) && closed) = false) :
    s.sampleAnyKey closed = s.putAnyKey (d.sample closed (s.threshold d.down)) := by
  unfold State.sampleAnyKey
  simp only [any, stays]
  rfl

/-- An any-key sample of a node that is not QUIESCENT debounces the record and does nothing else. -/
theorem sampleAnyKey_awake (s : State) (d : Debounce) (closed : Bool) (any : s.scanner.anyKey = some d)
    (awake : s.node.state ≠ .quiescent) :
    s.sampleAnyKey closed = s.putAnyKey (d.sample closed (s.threshold d.down)) := by
  by_cases wakes : (d.turns closed (s.threshold d.down) && closed) = true
  · obtain ⟨turns, isClosed⟩ := Bool.and_eq_true_iff.mp wakes
    subst isClosed
    obtain ⟨differs, reached⟩ := (turns_iff _ _ _).mp turns
    rw [sampleAnyKey_wakes s d any turns, sample_turned d _ _ differs reached]
    exact if_neg awake
  · exact sampleAnyKey_watches s d closed any (Bool.eq_false_iff.mpr wakes)

theorem otherSamples_watchForAnyKey : Claim.OtherSamplesWatchForAnyKey := by
  intro s returns running sense ended any
  refine ⟨fun off => ?_, fun d wake record => ?_⟩
  · rw [execKeySample_of_senses running sense, takeSample_off off]
    rfl
  · rw [execKeySample_of_senses running sense, takeSample_wake wake]
    refine ⟨fun open_ => ?_, fun closed quiet => ?_, fun closed up reached quiescent => ?_⟩
    · rw [open_, sampleAnyKey_watches s d _ record (by simp)]
      rfl
    · rw [show (returns != 0) = true from bne_iff_ne.mpr closed]
      by_cases awake : s.node.state = .quiescent
      · have stays : ¬d.turns true (s.threshold d.down) = true := fun turns => by
          obtain ⟨differs, reached⟩ := (turns_iff _ _ _).mp turns
          have up : d.down = false := Bool.eq_false_iff.mpr differs.symm
          rcases quiet with down | below | notQuiescent
          · exact differs down.symm
          · rw [up] at reached
            exact absurd below (Nat.not_lt.mpr reached)
          · exact notQuiescent awake
        rw [sampleAnyKey_watches s d _ record (by simp [stays])]
        rfl
      · rw [sampleAnyKey_awake s d _ record awake]
        rfl
    · have turns : d.turns true (s.threshold d.down) = true :=
        (turns_iff _ _ _).mpr ⟨by rw [up]; decide, by rw [up]; exact reached⟩
      rw [show (returns != 0) = true from bne_iff_ne.mpr closed, sampleAnyKey_wakes s d record turns,
        reportWake_quiescent (s.putAnyKey ⟨true, 0⟩) quiescent]
      rfl

theorem wakeReports_wakeAQuiescentNode : Claim.WakeReportsWakeAQuiescentNode := by
  intro s count wake record reached any
  have turns : (⟨false, count⟩ : Debounce).turns true (s.threshold false) = true :=
    (turns_iff _ _ _).mpr ⟨nofun, reached⟩
  have nearly : s.nearlyWakes = true := by
    unfold State.nearlyWakes
    rw [wake, record]
    exact turns
  have wakes : exec .wakeReport s = .next any.reportWake :=
    (congrArg Host.Outcome.next (if_pos nearly)).trans
      (congrArg Host.Outcome.next (sampleAnyKey_wakes s _ record turns))
  rw [wakes]
  exact ⟨fun quiescent => congrArg Host.Outcome.next (reportWake_quiescent any quiescent),
    fun awake => congrArg Host.Outcome.next (if_neg awake)⟩

theorem samples_endSenseWindows : Claim.SamplesEndSenseWindows := by
  intro s returns elsewhere
  exact congrArg Host.Outcome.next (if_neg (by simp [State.senses, elsewhere]))

/-- Settles O53: the any-key record is debounced, and its turning DOWN wakes a QUIESCENT node. -/
theorem wakeSamplesWatchForAnyKey : Obligations.WakeSamplesWatchForAnyKey :=
  ⟨otherSamples_watchForAnyKey, wakeReports_wakeAQuiescentNode, samples_endSenseWindows⟩

/-! ## The single happenings of a sample -/

theorem sampled_of_full (s : State) (k : Fin 128) (full : s.scanner.mode = .full)
    (driven : s.scanDrive.getLsbD (k.val % 16) = true) : s.sampled k = true := by
  unfold State.sampled keyColumn
  rw [full, driven]
  rfl

theorem keys_becomingDownReport : Claim.KeysBecomingDownReport := by
  intro s k full driven up reached
  have nearly : s.nearlyDown k = true := by
    simp [State.nearlyDown, sampled_of_full s k full driven, up, State.pressCount, reached]
  exact (congrArg Host.Outcome.next (if_pos nearly)).trans (congrArg Host.Outcome.next (becomeDown_pressed s k))

theorem keys_becomingUpReport : Claim.KeysBecomingUpReport := by
  intro s k press full driven down reached held
  have nearly : s.nearlyUp k = true := by
    simp [State.nearlyUp, sampled_of_full s k full driven, down, State.releaseCount, reached]
  exact (congrArg Host.Outcome.next (if_pos nearly)).trans (congrArg Host.Outcome.next (becomeUp_released s k press held))

theorem heldKeys_repeat : Claim.HeldKeysRepeat := by
  intro s k press closed full driven down held record enabled repeats due
  have isDue : s.repeatDue press = true := (repeatDue_iff s press).mpr ⟨enabled, repeats, due⟩
  have stays : ¬(s.key k).debounce.turns closed (s.threshold (s.key k).debounce.down) = true := fun turned => by
    obtain ⟨differs, reached⟩ := (turns_iff _ _ _).mp turned
    rw [down] at differs reached
    rcases held with isClosed | below
    · exact differs isClosed
    · exact absurd below (Nat.not_lt.mpr reached)
  have repeatsNow : s.repeats k closed = true := by
    have stays' : ¬(s.key k).debounce.turns closed s.releaseCount = true := by rw [down] at stays; exact stays
    simp [State.repeats, sampled_of_full s k full driven, down, stays', record, isDue]
  have next : (s.key k).debounce.sample closed (s.threshold (s.key k).debounce.down) =
      ⟨true, if closed then 0 else (s.key k).debounce.count + 1⟩ := by
    cases closed with
    | true => exact (sample_same _ _ _ down.symm).trans (by rw [down]; rfl)
    | false =>
      have below := held.resolve_left (by decide)
      exact (sample_counted _ _ _ (by rw [down]; decide) (by rw [down]; exact below)).trans (by rw [down]; rfl)
  refine (congrArg Host.Outcome.next (if_pos repeatsNow)).trans (congrArg Host.Outcome.next ?_)
  rw [sampleKey_held s k closed press down record stays, next]
  exact if_pos isDue

/-- Settles O54: each happening is the key's sample in the branch its conditions choose. -/
theorem keyEventsFollowThePressRecord : Obligations.KeyEventsFollowThePressRecord :=
  ⟨keys_becomingDownReport, keys_becomingUpReport, heldKeys_repeat⟩

end Sys2Proof.Machine
end

section
/-! The Light Sense Unit's measurements, and the windows of a phase. -/

namespace Sys2Proof.Machine

/-! ## Completed measurements -/

/-- R128: the event of a completion, submitted to a state. -/
theorem submitSome_levelEvent (s u : State) (result : Nat) :
    u.submitSome (s.levelEvent result) =
      let level := formLevel s.tables.light.active s.light.level result
      if level ≠ s.light.level ∧ (s.setting .eventMask).getLsbD 0 = true
      then u.submit .lightLevel (BitVec.ofNat 8 level) else u := by
  unfold State.levelEvent
  simp only []
  by_cases due : formLevel s.tables.light.active s.light.level result ≠ s.light.level ∧ s.masked 0 = true
  · rw [if_pos due]
    exact (if_pos due).symm
  · rw [if_neg due]
    exact (if_neg due).symm

theorem submit_withLight (s : State) (u : LightUnit) (kind : EventKind) (argument : Byte) :
    (s.submit kind argument).withLight u = (s.withLight u).submit kind argument := by
  unfold State.submit
  by_cases silent : s.node.state = .unaddressed
  · rw [if_pos silent]
    exact (if_pos silent).symm
  · rw [if_neg silent]
    exact (if_neg silent).symm

/-- R124, R128: a PERIOD measurement that completes while the next one begins in this state. -/
theorem completeMeasurement_lightGoes (s : State) (result : Nat) (overflow : Bool) (state : LightState) (count : Nat) :
    (s.completeMeasurement result overflow).lightGoes state count =
      let level := formLevel s.tables.light.active s.light.level result
      let done := s.withLight
        { s.light with state := state, count := count, result := result, overflow := overflow, level := level }
      if level ≠ s.light.level ∧ (s.setting .eventMask).getLsbD 0 = true
      then done.submit .lightLevel (BitVec.ofNat 8 level) else done := by
  unfold State.completeMeasurement
  rw [submitSome_levelEvent]
  simp only []
  split
  · have light : ∀ kind argument, ((s.storeResult result overflow).submit kind argument).light =
        (s.storeResult result overflow).light := fun kind argument => by rw [submit_frame]; rfl
    unfold State.lightGoes
    rw [light]
    exact submit_withLight (s.storeResult result overflow) _ _ _
  · rfl

theorem lsRisingEdge_edgeWait (s : State) (us : Nat) (waits : s.light.state = .edgeWait) :
    s.lsRisingEdge us = if s.light.count + us < 65535 then s.lightGoes .periodCount 0
      else s.overflowPeriod.lightGoes .periodCount 0 := by
  unfold State.lsRisingEdge; rw [waits]

theorem lsRisingEdge_periodCount (s : State) (us : Nat) (counts : s.light.state = .periodCount) :
    s.lsRisingEdge us = if s.light.count + us < 65535 then s.closePeriod (s.light.count + us)
      else s.overflowPeriod.lightGoes .periodCount 0 := by
  unfold State.lsRisingEdge; rw [counts]

theorem edges_openAndClosePeriods : Claim.EdgesOpenAndClosePeriods := by
  intro s us below
  refine ⟨fun waits => ?_, fun counts => ?_⟩
  · refine congrArg Host.Outcome.next ?_
    rw [lsRisingEdge_edgeWait s us waits, if_pos below]
    rfl
  · refine congrArg Host.Outcome.next ?_
    rw [lsRisingEdge_periodCount s us counts, if_pos below]
    exact completeMeasurement_lightGoes s _ false .periodCount 0

theorem edges_areCountedInWindows : Claim.EdgesAreCountedInWindows := by
  intro s us
  refine ⟨fun opened => ?_, fun idle => ?_⟩
  · refine congrArg Host.Outcome.next ?_
    unfold State.lsRisingEdge
    rw [opened]
    exact congrArg (fun state => s.withLight { s.light with state, count := min 65535 (s.light.count + 1) }) opened.symm
  · refine congrArg Host.Outcome.next ?_
    unfold State.lsRisingEdge
    rcases idle with stopped | waits
    · rw [stopped]
    · rw [waits]

theorem inPeriod_iff (u : LightUnit) : u.inPeriod = true ↔ u.state = .edgeWait ∨ u.state = .periodCount := by
  simp [LightUnit.inPeriod]

theorem execPeriodOverflow_of_inPeriod (s : State) (period : s.light.state = .edgeWait ∨ s.light.state = .periodCount) :
    exec .periodOverflow s = .next s.overflowPeriod :=
  congrArg Host.Outcome.next (if_pos ((inPeriod_iff s.light).mpr period))

theorem edgesAfterAnOverflow_openPeriods : Claim.EdgesAfterAnOverflowOpenPeriods := by
  intro s us period reached
  have past : ¬s.light.count + us < 65535 := Nat.not_lt.mpr reached
  refine ⟨_, execPeriodOverflow_of_inPeriod s period, congrArg Host.Outcome.next ?_⟩
  rcases period with waits | counts
  · rw [lsRisingEdge_edgeWait s us waits, if_neg past]
    rfl
  · rw [lsRisingEdge_periodCount s us counts, if_neg past]
    rfl

theorem periods_overflow : Claim.PeriodsOverflow := by
  intro s period level overflowed
  rw [execPeriodOverflow_of_inPeriod s period]
  exact congrArg Host.Outcome.next (completeMeasurement_lightGoes s 65535 true .edgeWait 0)

theorem windowCloses_iff (s : State) :
    s.windowCloses = true ↔
      s.light.state = .windowCount ∧ s.light.windowSweeps + 1 = (s.setting .lightWindow).toNat := by
  simp [State.windowCloses]

theorem windows_completeAtTheirLength : Claim.WindowsCompleteAtTheirLength := by
  intro s opened reached level done
  have closes : s.windowCloses = true := (windowCloses_iff s).mpr ⟨opened, reached⟩
  exact (congrArg Host.Outcome.next (if_pos closes)).trans
    (congrArg Host.Outcome.next (submitSome_levelEvent s s.closeWindow s.light.count))

theorem sweepStarts_boundTheWindows : Claim.SweepStartsBoundTheWindows := by
  intro s
  refine ⟨fun noWindow => ?_, fun waits => ?_, fun opened goesOn => ?_, fun opened reached => ?_⟩
  · rw [lightSweep_light]
    rcases noWindow with stopped | waits | counts
    · rw [stopped]
    · rw [waits]
    · rw [counts]
  · rw [lightSweep_light, waits]
  · rw [lightSweep_light, opened]
    exact if_neg fun reached => goesOn (eq_of_beq reached)
  · rw [lightSweep_light, opened]
    exact if_pos (beq_iff_eq.mpr reached)

/-- Settles O45: each edge, overflow and window by the state of the unit, the completions through one equation. -/
theorem measurementsComplete : Obligations.MeasurementsComplete :=
  ⟨edges_openAndClosePeriods, edges_areCountedInWindows, edgesAfterAnOverflow_openPeriods, periods_overflow,
    windows_completeAtTheirLength, sweepStarts_boundTheWindows⟩

/-! ## The windows of a phase -/

theorem execPhaseStart_running {s : State} (running : s.inReset = false) : exec .phaseStart s = .next s.phaseStart :=
  congrArg Host.Outcome.next (if_neg (by rw [running]; decide))

theorem execLitWindowEnd_running {s : State} (running : s.inReset = false) :
    exec .litWindowEnd s = .next s.litWindowEnd :=
  congrArg Host.Outcome.next (if_neg (by rw [running]; decide))

theorem execSenseWindowStart_running {s : State} (running : s.inReset = false) :
    exec .senseWindowStart s = .next s.senseWindowStart :=
  congrArg Host.Outcome.next (if_neg (by rw [running]; decide))

/-- R24, R28: the windows after which the sense window is next. -/
theorem senseDue_iff (s : State) :
    s.senseDue = true ↔ s.drive.window = .dark ∨ s.drive.window = .lit ∧ 56 ≤ s.drive.sweep.onTime := by
  unfold State.senseDue afterLit
  by_cases long : 56 ≤ s.drive.sweep.onTime <;> simp [long]

theorem windows_comeInOrder : Claim.WindowsComeInOrder := by
  intro s running
  refine ⟨fun ended more => ?_, fun lit short => ?_, fun lit full => ?_, fun due => ?_⟩
  · rw [execPhaseStart_running running]
    exact congrArg Host.Outcome.next (if_pos ⟨ended, more⟩)
  · rw [execLitWindowEnd_running running]
    refine congrArg Host.Outcome.next ((if_pos lit).trans ?_)
    rw [show afterLit s.drive.sweep.onTime = .dark from if_neg (Nat.not_le.mpr short)]
  · rw [execLitWindowEnd_running running]
    refine congrArg Host.Outcome.next ((if_pos lit).trans ?_)
    rw [show afterLit s.drive.sweep.onTime = .sense from if_pos full.ge]
  · rw [execSenseWindowStart_running running]
    refine congrArg Host.Outcome.next (if_pos ((senseDue_iff s).mpr ?_))
    exact due.imp_right fun ⟨lit, full⟩ => ⟨lit, full.ge⟩

theorem windows_keepTheirOrder : Claim.WindowsKeepTheirOrder := by
  intro s
  refine ⟨fun notDue => ?_, fun notLit => ?_, fun notDue => ?_, fun order late goesOn => execSweepStart_of_goes_on goesOn⟩
  · refine congrArg Host.Outcome.next ((if_congr Iff.rfl rfl (if_neg ?_)).trans (ite_self _))
    rintro ⟨ended, more⟩
    rcases notDue with notEnded | last
    · exact notEnded ended
    · exact absurd more (Nat.not_lt.mpr last)
  · exact congrArg Host.Outcome.next ((if_congr Iff.rfl rfl (if_neg notLit)).trans (ite_self _))
  · refine congrArg Host.Outcome.next ((if_congr Iff.rfl rfl (if_neg fun due => ?_)).trans (ite_self _))
    have next := (senseDue_iff s).mp due
    rcases notDue with sense | ended | ⟨lit, short⟩
    · simp [sense] at next
    · simp [ended] at next
    · simp only [lit, reduceCtorEq, false_or, true_and] at next
      exact absurd short (Nat.not_lt.mpr next)

/-- Settles O50: the windows of a phase by the window in progress; a sweep start by whether the sweep is at its end. -/
theorem phasesAndWindowsFollow : Obligations.PhasesAndWindowsFollow := ⟨windows_comeInOrder, windows_keepTheirOrder⟩

/-! ## The lines -/

theorem matrixRuns_iff (mode : DriveMode) : mode.matrixRuns = true ↔ mode = .normal ∨ mode = .fallbackFlash := by
  cases mode <;> decide

theorem commonActive_iff (s : State) (p : Nat) :
    s.commonActive p = true ↔
      s.inReset = false ∧ s.drive.window = .lit ∧ s.drive.phase = p ∧ p ≤ s.drive.sweep.phases.toNat ∧
        s.drive.sweep.onTime ≠ 0 ∧ (s.drive.sweep.mode = .normal ∨ s.drive.sweep.mode = .fallbackFlash) := by
  unfold State.commonActive
  rw [← matrixRuns_iff]
  simp [and_assoc]

theorem commons_areActiveAlone : Claim.CommonsAreActiveAlone := by
  intro s n inWord
  have bit : ∀ m < 8, s.commonLines.getLsbD m = s.commonActive (m + 1) := lineWord_getLsbD 8 s.commonActive
  have phase : ∀ m < 8, s.commonLines.getLsbD m = true → s.drive.phase = m + 1 := fun m within active => by
    rw [bit m within] at active
    exact ((commonActive_iff s (m + 1)).mp active).2.2.1
  refine ⟨by rw [bit n inWord]; exact commonActive_iff s (n + 1), fun m within activeN activeM => ?_⟩
  exact Nat.succ.inj ((phase m within activeM).symm.trans (phase n inWord activeN))

/-- R31: the gate of each blink class. -/
theorem blinkOn_iff (w : SweepInputs) (blink : BlinkClass) :
    w.blinkOn blink = true ↔ (blink = .a → w.halfA = true) ∧ (blink = .b → w.halfB = true) := by
  cases blink <;> simp [SweepInputs.blinkOn]

/-- R30, R31: a route entry's dot is lit once its blink gate lets it through. -/
theorem gatedValue_iff (w : SweepInputs) (e : RouteEntry) :
    w.gatedValue e = true ↔
      (e.kind = 2 ∨ (e.kind = 1 ∧ (patternOf w.shown w.glyph e.cell).getLsbD e.line.toNat ≠ e.invert)) ∧
        (e.kind = 1 → (w.shown[e.cell].blink = .a → w.halfA = true) ∧ (w.shown[e.cell].blink = .b → w.halfB = true)) := by
  unfold SweepInputs.gatedValue SweepInputs.routeValue
  rw [Bool.and_eq_true_iff]
  by_cases dot : e.kind = 1
  · simp only [dot, if_true, bne_iff_ne, true_and, forall_const]
    exact and_congr (by simp) (blinkOn_iff w _)
  · simp only [dot, if_false, beq_iff_eq, false_and, or_false, and_true, false_imp_iff]

theorem dotLit_iff (w : SweepInputs) (line phase : Nat) :
    w.dotLit line phase = true ↔
      (w.mode = .normal ∨ (w.mode = .fallbackFlash ∧ w.halfB = true)) ∧
        w.gatedValue (routeEntry w.route (routeIndex line phase)) = true := by
  unfold SweepInputs.dotLit SweepInputs.flashOn
  cases w.mode <;> simp [DriveMode.matrixRuns, and_comm]

theorem staticLit_iff (w : SweepInputs) (line : Nat) :
    w.staticLit line = true ↔ w.mode ≠ .off ∧ w.gatedValue (routeEntry w.route (routeIndex line 1)) = true := by
  simp [SweepInputs.staticLit]

theorem segmentActive_running (s : State) (line : Nat) (running : s.inReset = false) :
    s.segmentActive line =
      if s.drive.sweep.isStatic line then s.drive.sweep.staticLit line else s.multiplexedActive line := by
  unfold State.segmentActive
  rw [running]
  rfl

theorem segmentLines_areGated : Claim.SegmentLinesAreGated := by
  intro s n inWord running w first e value line
  have entry : line = s.segmentActive (n + 1) := lineWord_getLsbD 48 s.segmentActive n inWord
  have static : first.static = true → line = w.staticLit (n + 1) := fun isStatic => by
    rw [entry, segmentActive_running s _ running]
    exact if_pos isStatic
  have multiplexed : first.static = false → line = s.multiplexedActive (n + 1) := fun dynamic => by
    rw [entry, segmentActive_running s _ running]
    exact if_neg fun isStatic => Bool.false_ne_true (dynamic.symm.trans isStatic)
  refine ⟨fun isStatic => ?_, fun dynamic lit => ?_, fun dynamic dark => ?_, fun dynamic sense => ?_⟩
  · rw [static isStatic, staticLit_iff, gatedValue_iff]
    rfl
  · rw [multiplexed dynamic]
    unfold State.multiplexedActive
    rw [lit]
    exact (dotLit_iff w (n + 1) s.drive.phase).trans (and_congr_right' (gatedValue_iff w e))
  · rw [multiplexed dynamic]
    unfold State.multiplexedActive
    rcases dark with dark | ended
    · rw [dark]
    · rw [ended]
  · rw [multiplexed dynamic]
    unfold State.multiplexedActive
    rw [sense]
    simp

/-- The column set of a SCAN entry: the low byte holds columns 1 to 8. -/
theorem scanColumns_getLsbD (v : Vector Byte 34) (j c : Nat) :
    (scanColumns v j).getLsbD c =
      if c < 8 then (byteAt v (2 * j + 1)).getLsbD c else (byteAt v (2 * j)).getLsbD (c - 8) :=
  BitVec.getLsbD_append

theorem allColumns_getLsbD : ∀ c < 16, (0xFFFF#16).getLsbD c = true := by decide

theorem columns_areDrivenByMode : Claim.ColumnsAreDrivenByMode := by
  intro s
  refine ⟨fun off => ?_, fun full c inWord => ?_, fun wake c inWord => ?_⟩
  · unfold State.scanDrive; rw [off]
  · unfold State.scanDrive
    rw [full]
    exact scanColumns_getLsbD _ _ c
  · unfold State.scanDrive
    rw [wake]
    exact allColumns_getLsbD c inWord

/-- Settles O51: a line of a word by `lineWord_getLsbD`, its condition window by window. -/
theorem linesAreDrivenByTheSweep : Obligations.LinesAreDrivenByTheSweep :=
  ⟨commons_areActiveAlone, segmentLines_areGated, columns_areDrivenByMode⟩

end Sys2Proof.Machine
end

section
/-! What the sweep that begins is given: its inputs, its blink halves and its drive mode; and the Key Scanner at a sweep
start whose last sample has been taken. -/

namespace Sys2Proof.Machine

/-! ## The state that begins the sweep -/

theorem exec_sweepStart {s t : State} {order : SubmitOrder} {late : Option LateSample} (ends : s.sweepEnds late)
    (h : exec (.sweepStart ⟨order, late⟩) s = .next t) : t = s.sweepStart order (s.lateSample late) := by
  rw [show exec (.sweepStart ⟨order, late⟩) s = _ from execSweepStart_of_ends ends] at h
  exact (Host.Outcome.next.inj h).symm

theorem sweepStart_tables (s : State) (order : SubmitOrder) (late : Option LateSample) :
    (s.sweepStart order late).tables = s.tables.activatePending := (sweepChanges_fields s order late).2.2.2.2.2.2.2.2

theorem sweepChanges_setting (s : State) (order : SubmitOrder) (late : Option LateSample) (n : Setting) :
    (s.sweepChanges (sweepTurns order late)).setting n = s.setting n :=
  congrArg (byteAt · (settingId n)) (sweepChanges_fields s order late).2.2.2.2.1

theorem sweepInputs_areFixed : Claim.SweepInputsAreFixed := by
  intro s t order late ends h
  obtain ⟨_, _, _, _, _, _, drive, _⟩ := sweepChanges_fields s order (s.lateSample late)
  have setting := sweepChanges_setting s order (s.lateSample late)
  have counter : (s.sweepStart order (s.lateSample late)).drive.sweepCounter = s.drive.sweepCounter + 1 ∧
      (s.sweepStart order (s.lateSample late)).drive.phase = 1 :=
    ⟨congrArg Drive.sweepCounter drive, congrArg Drive.phase drive⟩
  have level : (s.sweepStart order (s.lateSample late)).drive.level =
      (if s.setting .brightSource = 0 then (s.setting .brightLevel).toNat
        else (s.sweepStart order (s.lateSample late)).brightnessOutput) := by
    rw [← setting, ← setting]
    rfl
  rw [exec_sweepStart ends h]
  exact ⟨counter.1, counter.2, rfl, rfl, rfl, rfl, setting .phases, setting .phaseTime, setting .display,
    setting .fallback, rfl, rfl, level, rfl, rfl, rfl⟩

theorem blinkSweeps_followTheLengths : Claim.BlinkSweepsFollowTheLengths := by
  intro s t order late ends h counter next
  obtain ⟨_, _, _, _, _, _, drive, _⟩ := sweepChanges_fields s order (s.lateSample late)
  have setting := sweepChanges_setting s order (s.lateSample late)
  have begun : (s.sweepChanges (sweepTurns order (s.lateSample late))).sweepDrive.blinkA = next s.drive.blinkA
      (s.setting .blinkAOn) (s.setting .blinkAOff) ∧
      (s.sweepChanges (sweepTurns order (s.lateSample late))).sweepDrive.blinkB = next s.drive.blinkB
      (s.setting .blinkBOn) (s.setting .blinkBOff) := by
    unfold State.sweepDrive
    rw [setting, setting, setting, setting, drive]
    exact ⟨rfl, rfl⟩
  rw [exec_sweepStart ends h]
  exact begun

/-- R33 step 2: when a half reaches its length. -/
theorem changes_iff (g : Blink) (counter on off : Byte) :
    g.changes counter on off = true ↔ g.restart = false ∧ counter - g.start = (if g.on then on else off) := by
  simp [Blink.changes]

theorem blinkHalves_change : Claim.BlinkHalvesChange := by
  refine fun s => ⟨fun settled reached => ?_, fun settled reached => ?_⟩
  · exact congrArg Host.Outcome.next (if_pos ((changes_iff _ _ _ _).mpr ⟨settled, reached⟩))
  · exact congrArg Host.Outcome.next (if_pos ((changes_iff _ _ _ _).mpr ⟨settled, reached⟩))

/-- Settles O46: a generator takes its own part of the drive of the sweep that begins. -/
theorem blinkHalvesLastTheirLength : Obligations.BlinkHalvesLastTheirLength :=
  ⟨blinkSweeps_followTheLengths, blinkHalves_change⟩

/-! ## The drive mode -/

/-- R39: the first row that holds. -/
theorem driveModeDue_rows (s : State) :
    let fallback := s.node.state = .standalone ∨ s.node.fallbackHold = true
    (s.node.state = .unaddressed → s.driveModeDue = .off) ∧
    (s.node.state = .quiescent → s.driveModeDue = .quiet) ∧
    (s.node.state = .online ∨ s.node.state = .standalone →
      (s.setting .display = 1 → s.driveModeDue = .blank) ∧
      (s.setting .display = 0 →
        (fallback → s.setting .fallback = 0 → s.driveModeDue = .fallbackDark) ∧
        (fallback → s.setting .fallback = 2 → s.driveModeDue = .fallbackFlash) ∧
        (¬fallback ∨ s.setting .fallback = 1 → s.driveModeDue = .normal))) := by
  intro fallback
  refine ⟨fun unaddressed => if_pos unaddressed, fun quiescent => ?_, fun awake => ?_⟩
  · exact (if_neg (by rw [quiescent]; decide)).trans (if_pos quiescent)
  · have rows : s.driveModeDue = if s.setting .display = 1 then .blank else
        if fallback then (if s.setting .fallback = 0 then .fallbackDark
          else if s.setting .fallback = 2 then .fallbackFlash else .normal) else .normal := by
      have addressed : s.node.state ≠ .unaddressed := by rcases awake with h | h <;> rw [h] <;> decide
      have awoken : s.node.state ≠ .quiescent := by rcases awake with h | h <;> rw [h] <;> decide
      exact (if_neg addressed).trans (if_neg awoken)
    rw [rows]
    refine ⟨fun blank => if_pos blank, fun shows => ?_⟩
    rw [if_neg (by rw [shows]; decide)]
    refine ⟨fun falls dark => ?_, fun falls flash => ?_, fun normal => ?_⟩
    · rw [if_pos falls, if_pos dark]
    · rw [if_pos falls, if_neg (by rw [flash]; decide), if_pos flash]
    · rcases normal with holds | shown
      · rw [if_neg holds]
      · rw [if_neg (show ¬s.setting .fallback = 0 by rw [shown]; decide),
          if_neg (show ¬s.setting .fallback = 2 by rw [shown]; decide), ite_self]

theorem driveMode_isTheFirstRow : Claim.DriveModeIsTheFirstRow := by
  intro s t order late ends _ h fallback shows
  have setting := sweepChanges_setting s order (s.lateSample late)
  obtain ⟨off, quiet, awake⟩ := driveModeDue_rows (s.sweepChanges (sweepTurns order (s.lateSample late)))
  rw [setting, setting] at awake
  have begun := exec_sweepStart ends h
  have node : t.node = (s.sweepChanges (sweepTurns order (s.lateSample late))).node := by rw [begun]; rfl
  have mode : t.drive.sweep.mode = (s.sweepChanges (sweepTurns order (s.lateSample late))).driveModeDue := by
    rw [begun]; rfl
  rw [← node, ← mode] at off quiet awake
  exact ⟨off, quiet, fun isAwake => (awake isAwake).1, fun ⟨isAwake, shown⟩ => ((awake isAwake).2 shown).1,
    fun ⟨isAwake, shown⟩ => ((awake isAwake).2 shown).2.1, fun ⟨isAwake, shown⟩ => ((awake isAwake).2 shown).2.2⟩

/-- Settles O47: the sweep's inputs are read from the state after the changes of the sweep start, whose settings are the
ones before it. -/
theorem sweepStartFixesItsInputs : Obligations.SweepStartFixesItsInputs :=
  ⟨sweepInputs_areFixed, driveMode_isTheFirstRow⟩

/-! ## The Key Scanner with no late sample -/

/-- A driven column of the steps 1 to n is a column of one of them. -/
theorem stepColumns_getLsbD (v : Vector Byte 34) (n c : Nat) :
    (stepColumns v n).getLsbD c = true ↔ ∃ j, 1 ≤ j ∧ j ≤ n ∧ (scanColumns v j).getLsbD c = true := by
  induction n with
  | zero =>
    refine ⟨fun h => absurd h (by simp [stepColumns]), ?_⟩
    rintro ⟨j, first, last, _⟩
    omega
  | succ n ih =>
    unfold stepColumns
    rw [BitVec.getLsbD_or, Bool.or_eq_true, ih]
    constructor
    · rintro (⟨j, first, last, driven⟩ | driven)
      · exact ⟨j, first, by omega, driven⟩
      · exact ⟨n + 1, by omega, by omega, driven⟩
    · rintro ⟨j, first, last, driven⟩
      by_cases latest : j = n + 1
      · exact .inr (latest ▸ driven)
      · exact .inl ⟨j, first, by omega, driven⟩

theorem enter_mode (sc : Scanner) (mode : ScanMode) : (sc.enter mode).mode = mode := by
  unfold Scanner.enter
  split
  · next same => exact same.symm
  · rfl

theorem enter_same (sc : Scanner) (mode : ScanMode) (same : mode = sc.mode) : sc.enter mode = sc := if_pos same

theorem enter_new (sc : Scanner) (mode : ScanMode) (new : mode ≠ sc.mode) :
    (sc.mode = .full → (sc.enter mode).keys = keysUp) ∧ (mode = .full → (sc.enter mode).step = 1) ∧
      (sc.enter mode).anyKey = (if mode = .wake then some ⟨true, 0⟩ else none) := by
  unfold Scanner.enter
  rw [if_neg new]
  exact ⟨fun full => if_pos full, fun full => if_pos full, rfl⟩

theorem lateSample_taken {s : State} (taken : s.sampleTaken) (late : Option LateSample) : s.lateSample late = none :=
  if_neg (by unfold State.sampleTaken at taken; simp [State.senses, taken])

theorem rescheduled_in (v : Vector Byte 34) (k : Fin 128) (r : KeyRecord)
    (scheduled : ∃ j, 1 ≤ j ∧ j ≤ scanStepCount v ∧ (scanColumns v j).getLsbD (k.val % 16) = true) :
    rescheduled (scheduleColumns v) k r = ⟨{ r.debounce with count := 0 }, r.press⟩ :=
  if_pos ((stepColumns_getLsbD v _ _).mpr scheduled)

theorem rescheduled_out (v : Vector Byte 34) (k : Fin 128) (r : KeyRecord)
    (dropped : ∀ j, 1 ≤ j → j ≤ scanStepCount v → (scanColumns v j).getLsbD (k.val % 16) = false) :
    rescheduled (scheduleColumns v) k r = KeyRecord.up := by
  refine if_neg fun driven => ?_
  obtain ⟨j, first, last, column⟩ := (stepColumns_getLsbD v _ _).mp driven
  exact Bool.false_ne_true ((dropped j first last).symm.trans column)

theorem scanMode_followsTheNode : Claim.ScanModeFollowsTheNode := by
  intro s t order late ends taken h scan
  rw [exec_sweepStart ends h, lateSample_taken taken]
  obtain ⟨_, _, _, scanner⟩ := sweepChanges_taken s order
  have tables := sweepStart_tables s order none
  replace scanner : (s.sweepStart order none).scanner =
      (if scan then s.scanner.restart s.tables.activatePending.scan.active else s.scanner).enter s.modeDue := scanner
  have mode : (if scan then s.scanner.restart s.tables.activatePending.scan.active else s.scanner).mode =
      s.scanner.mode := by split <;> rfl
  have due : (s.sweepStart order none).scanner.mode = s.modeDue := by rw [scanner, enter_mode]
  refine ⟨due, fun still same => ?_, fun new => ?_, fun activates => ⟨?_, fun same k => ?_⟩⟩
  · rw [scanner, still]
    exact enter_same _ _ (due.symm.trans same)
  · rw [due] at new ⊢
    rw [← mode] at new ⊢
    rw [scanner]
    exact enter_new _ _ new
  · rw [scanner, activates]
    exact (enter_step _ _).elim id id
  · have key : (s.sweepStart order none).key k =
        rescheduled (scheduleColumns s.tables.activatePending.scan.active) k (s.key k) := by
      unfold State.key
      rw [scanner, activates, if_pos rfl, enter_same (s.scanner.restart _) _ (due.symm.trans same)]
      exact restart_key ..
    rw [key, tables]
    exact ⟨rescheduled_in _ k _, rescheduled_out _ k _⟩

end Sys2Proof.Machine
end

section
/-! What a sample reads: states that agree on it sample alike. And what a sample does to Node Control, the Light Sense
Unit, the Tone Unit and the step position. -/

namespace Sys2Proof.Machine

/-! ## States that sample alike -/

/-- Two states that agree on what a sample reads, the step position aside; while `q` holds on the event queue too, and
while `t` holds on what the tone channel is given from. -/
structure Alike (q t : Prop) (a b : State) : Prop where
  settings : a.settings = b.settings
  mode : a.scanner.mode = b.scanner.mode
  keys : a.scanner.keys = b.scanner.keys
  anyKey : a.scanner.anyKey = b.scanner.anyKey
  state : a.node.state = b.node.state
  time : a.node.time = b.node.time
  keymap : a.tables.keymap.active = b.tables.keymap.active
  queue : q → a.queue = b.queue
  tone : t → a.tone = b.tone
  toneTable : t → a.tables.tone.active = b.tables.tone.active

namespace Alike

variable {q t : Prop} {a b : State}

theorem setting (h : Alike q t a b) (n : Setting) : a.setting n = b.setting n :=
  congrArg (byteAt · (settingId n)) h.settings

theorem key (h : Alike q t a b) (k : Fin 128) : a.key k = b.key k := congrArg (·[k]) h.keys

theorem threshold (h : Alike q t a b) (down : Bool) : a.threshold down = b.threshold down := by
  unfold State.threshold State.releaseCount State.pressCount
  rw [h.setting, h.setting]

theorem withTone (h : Alike q t a b) {x y : Option Play} (same : t → x = y) : Alike q t (a.withTone x) (b.withTone y) :=
  { h with tone := same }

theorem putKey (h : Alike q t a b) (k : Fin 128) (r : KeyRecord) : Alike q t (a.putKey k r) (b.putKey k r) :=
  { h with keys := congrArg (overwriteVector · k.val [r]) h.keys }

theorem putAnyKey (h : Alike q t a b) (d : Debounce) : Alike q t (a.putAnyKey d) (b.putAnyKey d) :=
  { h with anyKey := rfl }

theorem submit (h : Alike q t a b) (kind : EventKind) (argument : Byte) :
    Alike q t (a.submit kind argument) (b.submit kind argument) := by
  unfold State.submit
  by_cases silent : a.node.state = .unaddressed
  · rw [if_pos silent, if_pos (h.state.symm.trans silent)]
    exact h
  · rw [if_neg silent, if_neg fun other => silent (h.state.trans other)]
    have taken : q → a.queue.take kind argument a.node.time = b.queue.take kind argument b.node.time := fun on => by
      rw [h.queue on, h.time]
    exact { h with queue := taken }

theorem plays (same : a.tone = b.tone) (kind : ToneKind) : a.plays kind = b.plays kind := by
  unfold State.plays; rw [same]

theorem claimSilence (h : Alike q t a b) : Alike q t a.claimSilence b.claimSilence := by
  rw [claimSilence_frame a, claimSilence_frame b]
  refine h.withTone fun on => ?_
  unfold State.claimSilence
  rw [plays (h.tone on), plays (h.tone on)]
  split
  · rfl
  · exact h.tone on

theorem claimClick (h : Alike q t a b) (number : Byte) : Alike q t (a.claimClick number) (b.claimClick number) := by
  rw [claimClick_frame a, claimClick_frame b]
  refine h.withTone fun on => ?_
  unfold State.claimClick State.startPlay
  rw [plays (h.tone on), plays (h.tone on), h.toneTable on]
  split
  · exact h.tone on
  · rfl

/-! ## One key's sample -/

theorem newPress (h : Alike q t a b) (k : Fin 128) : a.newPress k = b.newPress k := by
  unfold State.newPress; rw [h.keymap, h.time]

theorem becomeDown (h : Alike q t a b) (k : Fin 128) : Alike q t (a.becomeDown k) (b.becomeDown k) := by
  unfold State.becomeDown
  rw [h.newPress k]
  generalize b.newPress k = press
  have put := h.putKey k ⟨⟨true, 0⟩, some press⟩
  have told : Alike q t ((a.putKey k ⟨⟨true, 0⟩, some press⟩).reportDown press)
      ((b.putKey k ⟨⟨true, 0⟩, some press⟩).reportDown press) := by
    unfold State.reportDown
    split
    · exact put.submit _ _
    · exact put
  have quiet : Alike q t (((a.putKey k ⟨⟨true, 0⟩, some press⟩).reportDown press).pressSilence press)
      (((b.putKey k ⟨⟨true, 0⟩, some press⟩).reportDown press).pressSilence press) := by
    unfold State.pressSilence
    split
    · exact told.claimSilence
    · exact told
  unfold State.pressClick State.clicks
  rw [quiet.setting, quiet.state]
  split
  · exact quiet.claimClick _
  · exact quiet

theorem becomeUp (h : Alike q t a b) (k : Fin 128) : Alike q t (a.becomeUp k) (b.becomeUp k) := by
  unfold State.becomeUp State.reportUp
  rw [h.key k]
  have put := h.putKey k KeyRecord.up
  split
  · exact put
  · split
    · exact put.submit _ _
    · exact put

theorem repeatDue (h : Alike q t a b) (press : PressRecord) : a.repeatDue press = b.repeatDue press := by
  unfold State.repeatDue; rw [h.setting, h.setting]

theorem holdKey (h : Alike q t a b) (k : Fin 128) (d : Debounce) : Alike q t (a.holdKey k d) (b.holdKey k d) := by
  unfold State.holdKey
  rw [h.key k]
  split
  · exact h.putKey k _
  · rw [h.repeatDue]
    split
    · exact (h.putKey k _).submit _ _
    · exact h.putKey k _

theorem sampleKey (h : Alike q t a b) (k : Fin 128) (closed : Bool) :
    Alike q t (a.sampleKey k closed) (b.sampleKey k closed) := by
  unfold State.sampleKey
  rw [h.key k]
  simp only [h.threshold]
  split
  · split
    · exact h.becomeDown k
    · exact h.becomeUp k
  · split
    · exact h.holdKey k _
    · exact h.putKey k _

/-! ## A whole sample -/

theorem foldl_sampleIn (h : Alike q t a b) (columns : Half) (returns : Byte) (l : List (Fin 128)) :
    Alike q t (l.foldl (State.sampleIn columns returns) a) (l.foldl (State.sampleIn columns returns) b) := by
  induction l generalizing a b with
  | nil => exact h
  | cons k rest ih =>
    refine ih ?_
    unfold State.sampleIn
    split
    · exact h.sampleKey k _
    · exact h

theorem reportWake (h : Alike q t a b) : Alike q t a.reportWake b.reportWake := by
  by_cases quiescent : a.node.state = .quiescent
  · rw [reportWake_quiescent a quiescent, reportWake_quiescent b (h.state.symm.trans quiescent)]
    have taken : q → a.queue.take .wakeKey 0 a.node.time = b.queue.take .wakeKey 0 b.node.time := fun on => by
      rw [h.queue on, h.time]
    exact { h with state := rfl, queue := taken }
  · rw [show a.reportWake = a from if_neg quiescent,
      show b.reportWake = b from if_neg fun other => quiescent (h.state.trans other)]
    exact h

theorem sampleAnyKey (h : Alike q t a b) (closed : Bool) : Alike q t (a.sampleAnyKey closed) (b.sampleAnyKey closed) := by
  unfold State.sampleAnyKey
  rw [h.anyKey]
  split
  · exact h
  · simp only [h.threshold]
    split
    · exact (h.putAnyKey _).reportWake
    · exact h.putAnyKey _

theorem takeSample (h : Alike q t a b) (columns : Half) (returns : Byte) :
    Alike q t (a.takeSample columns returns) (b.takeSample columns returns) := by
  unfold State.takeSample
  rw [h.mode]
  split
  · exact h
  · have sampled := h.foldl_sampleIn columns returns (List.finRange 128)
    exact { sampled with }
  · exact h.sampleAnyKey _

end Alike

/-! ## What a sample does -/

/-- The sample wakes the node (R88, R89). -/
def State.sampleWakes (s : State) (returns : Byte) : Bool :=
  s.scanner.mode == .wake && returns != 0 && s.node.state == .quiescent &&
    s.scanner.anyKey.any fun d => d.turns true (s.threshold d.down)

theorem sampleWakes_mode {s : State} {returns : Byte} (wakes : s.sampleWakes returns = true) :
    s.scanner.mode = .wake ∧ s.node.state = .quiescent := by
  unfold State.sampleWakes at wakes
  simp only [Bool.and_eq_true, beq_iff_eq] at wakes
  exact ⟨wakes.1.1.1, wakes.1.2⟩

theorem Alike.sampleWakes {q t : Prop} {a b : State} (h : Alike q t a b) (returns : Byte) :
    a.sampleWakes returns = b.sampleWakes returns := by
  unfold State.sampleWakes
  simp only [h.mode, h.state, h.anyKey, h.threshold]

/-- R118, R123: the measurement of a node that wakes. -/
def State.wokenLight (s : State) (u : LightUnit) : LightUnit :=
  if s.setting .lightMode = 0 then u.stop else u.start (s.setting .lightMode)

/-- What a sample does to Node Control and the Light Sense Unit. -/
theorem takeSample_wake_or_not (s : State) (columns : Half) (returns : Byte) :
    (s.takeSample columns returns).node =
        (if s.sampleWakes returns then { s.node with state := .online, silence := 0 } else s.node) ∧
      (s.takeSample columns returns).light = (if s.sampleWakes returns then s.wokenLight s.light else s.light) := by
  by_cases wakes : s.sampleWakes returns = true
  · obtain ⟨wake, quiescent⟩ := sampleWakes_mode wakes
    rw [if_pos wakes, if_pos wakes, takeSample_wake wake]
    unfold State.sampleWakes at wakes
    simp only [Bool.and_eq_true] at wakes
    obtain ⟨⟨⟨_, closed⟩, _⟩, turned⟩ := wakes
    cases record : s.scanner.anyKey with
    | none =>
      rw [record] at turned
      cases turned
    | some d =>
      rw [record] at turned
      rw [closed, sampleAnyKey_wakes s d record turned, reportWake_quiescent (s.putAnyKey ⟨true, 0⟩) quiescent]
      exact ⟨rfl, rfl⟩
  · rw [if_neg wakes, if_neg wakes]
    by_cases wake : s.scanner.mode = .wake
    · rw [takeSample_wake wake]
      cases record : s.scanner.anyKey with
      | none =>
        unfold State.sampleAnyKey
        rw [record]
        exact ⟨rfl, rfl⟩
      | some d =>
        have stays : s.node.state = .quiescent →
            (d.turns (returns != 0) (s.threshold d.down) && returns != 0) = false := by
          intro quiescent
          unfold State.sampleWakes at wakes
          by_cases closed : returns = 0
          · simp [closed]
          · rw [show (returns != 0) = true from bne_iff_ne.mpr closed]
            have still : ¬returns = 0 → d.turns true (s.threshold d.down) = false := by
              simpa [wake, quiescent, record] using wakes
            rw [still closed]
            rfl
        by_cases quiescent : s.node.state = .quiescent
        · rw [sampleAnyKey_watches s d _ record (stays quiescent)]
          exact ⟨rfl, rfl⟩
        · rw [sampleAnyKey_awake s d _ record quiescent]
          exact ⟨rfl, rfl⟩
    · exact takeSample_leaves s columns returns wake

theorem takeSample_tone (s : State) (columns : Half) (returns : Byte) (notFull : s.scanner.mode ≠ .full) :
    (s.takeSample columns returns).tone = s.tone := by
  unfold State.takeSample
  split
  · rfl
  · next full => exact absurd full notFull
  · obtain ⟨scanner, node, light, queue, h⟩ := sampleAnyKey_frame s (returns != 0)
    rw [h]
    rfl

theorem sampleAnyKey_step (s : State) (closed : Bool) : (s.sampleAnyKey closed).scanner.step = s.scanner.step := by
  unfold State.sampleAnyKey
  split
  · rfl
  · split
    · rw [reportWake_frame]
      rfl
    · rfl

/-- R72: the step position after a sample. -/
theorem takeSample_step (s : State) (columns : Half) (returns : Byte) :
    (s.takeSample columns returns).scanner.step =
      if s.scanner.mode = .full then
        (if s.scanner.step < scanStepCount s.tables.scan.active then s.scanner.step + 1 else 1)
      else s.scanner.step := by
  cases mode : s.scanner.mode with
  | off => rw [takeSample_off mode]; rfl
  | full => rw [takeSample_full mode, advanceStep_sampleKeys]; rfl
  | wake => rw [takeSample_wake mode, sampleAnyKey_step]; rfl

end Sys2Proof.Machine
end

section
/-! A sweep start in which the sweep's last sample is taken: the turns before the sample, the sample, and the turns
after it; and what a sweep start leaves outside the Multiplex Driver, the Key Scanner and the Event Queue. -/

namespace Sys2Proof.Machine

/-! ## The turns about a late sample -/

theorem blocksInOrder_nodup (order : SubmitOrder) : (blocksInOrder order).Nodup := by cases order <;> decide

theorem mem_blocksInOrder (order : SubmitOrder) (turn : Turn) :
    turn ∈ blocksInOrder order ↔ ∀ returns, turn ≠ .sample returns := by
  cases turn with
  | light => cases order <;> simp [blocksInOrder]
  | cells => cases order <;> simp [blocksInOrder]
  | tables => cases order <;> simp [blocksInOrder]
  | sample returns => exact ⟨fun h => absurd h (by cases order <;> simp [blocksInOrder]), fun h => absurd rfl (h returns)⟩

/-- Turns of blocks, each block's at most once. -/
def areBlocks (turns : List Turn) : Prop := turns.Nodup ∧ ∀ turn ∈ turns, ∀ returns, turn ≠ .sample returns

theorem areBlocks_sublist (order : SubmitOrder) {turns : List Turn} (part : turns.Sublist (blocksInOrder order)) :
    areBlocks turns :=
  ⟨(blocksInOrder_nodup order).sublist part, fun turn h => (mem_blocksInOrder order turn).mp (part.subset h)⟩

def turnsBefore (order : SubmitOrder) (late : LateSample) : List Turn := (blocksInOrder order).take (late.after.val + 1)
def turnsAfter (order : SubmitOrder) (late : LateSample) : List Turn := (blocksInOrder order).drop (late.after.val + 1)

section

variable (order : SubmitOrder) (late : LateSample)

theorem turnsBefore_areBlocks : areBlocks (turnsBefore order late) := areBlocks_sublist order (List.take_sublist _ _)

theorem turnsAfter_areBlocks : areBlocks (turnsAfter order late) := areBlocks_sublist order (List.drop_sublist _ _)

/-- Each block's turn stands on one side of the late sample. -/
theorem turn_onOneSide (turn : Turn) (block : ∀ returns, turn ≠ .sample returns) :
    (turn ∈ turnsBefore order late ∧ turn ∉ turnsAfter order late) ∨
      (turn ∉ turnsBefore order late ∧ turn ∈ turnsAfter order late) := by
  have whole : turnsBefore order late ++ turnsAfter order late = blocksInOrder order := List.take_append_drop _ _
  have once := blocksInOrder_nodup order
  have present := (mem_blocksInOrder order turn).mpr block
  rw [← whole] at once present
  have apart := (List.nodup_append.mp once).2.2
  rcases List.mem_append.mp present with before | after
  · exact .inl ⟨before, fun after => apart turn before turn after rfl⟩
  · exact .inr ⟨fun before => apart turn before turn after rfl, after⟩

/-- The state at a sweep start when the turns before the late sample have been taken. -/
def State.beforeSample (s : State) : State := (turnsBefore order late).foldl s.takeTurn s.countSweep

/-- The same once the late sample has been taken, with the columns of the sweep that ends. -/
def State.afterSample (s : State) : State := (s.beforeSample order late).takeSample s.scanDrive late.returns

/-- The same once every turn has been taken. -/
def State.afterTurns (s : State) : State := (turnsAfter order late).foldl s.takeTurn (s.afterSample order late)

variable (s : State)

theorem foldl_sweepTurns_late :
    (sweepTurns order (some late)).foldl s.takeTurn s.countSweep = s.afterTurns order late := by
  rw [show sweepTurns order (some late) =
    turnsBefore order late ++ .sample late.returns :: turnsAfter order late from rfl, List.foldl_append]
  rfl

/-! ## Node Control and the measurement in the turns of a run of blocks -/

/-- R18, R20: Node Control after the Cell Store's turn. -/
def State.transferred (s : State) (n : NodeControl) : NodeControl :=
  if s.cells.pendingValid then { n with fallbackHold := false } else n

theorem transferred_state (n : NodeControl) : (s.transferred n).state = n.state ∧ (s.transferred n).time = n.time := by
  unfold State.transferred; split <;> exact ⟨rfl, rfl⟩

theorem transferred_eq (n : NodeControl) :
    s.transferred n = { n with fallbackHold := n.fallbackHold && !s.cells.pendingValid } := by
  unfold State.transferred
  cases s.cells.pendingValid <;> simp

/-- What a run of blocks' turns from `x` does at the end of the sweep of `s`. -/
theorem foldl_blocks (turns : List Turn) (blocks : areBlocks turns) (x : State) (settings : x.settings = s.settings) :
    (turns.foldl s.takeTurn x).tone = x.tone ∧ (turns.foldl s.takeTurn x).scanner = x.scanner ∧
      (turns.foldl s.takeTurn x).node = (if .cells ∈ turns then x.transferred x.node else x.node) ∧
      (turns.foldl s.takeTurn x).light = (if .light ∈ turns then (s.withLight x.light).lightSweep.light else x.light) ∧
      (turns.foldl s.takeTurn x).settings = x.settings ∧
      (turns.foldl s.takeTurn x).tables = (if .tables ∈ turns then x.tables.activatePending else x.tables) ∧
      (.cells ∉ turns → (turns.foldl s.takeTurn x).cells = x.cells) := by
  have once := List.nodup_iff_count_le_one.mp blocks.1
  obtain ⟨tone, scanner, node, light⟩ := foldl_takeTurn_blocks x s turns blocks.2 (once _) (once _) settings
  exact ⟨tone, scanner, node, light, (foldl_takeTurn_keeps x s turns).2.2.1, foldl_takeTurn_tables x s turns (once _),
    fun absent => (foldl_takeTurn_cells x s turns (once _)).trans (if_neg absent)⟩

theorem keymap_activatePending (t : TableStore) (still : inSet t.pendingSet .keymap = false) :
    t.activatePending.keymap = t.keymap := if_neg (by rw [still]; decide)

theorem tone_activatePending (t : TableStore) (still : inSet t.pendingSet .tone = false) :
    t.activatePending.tone = t.tone := if_neg (by rw [still]; decide)

theorem scan_activatePending (t : TableStore) (still : inSet t.pendingSet .scan = false) :
    t.activatePending.scan = t.scan := if_neg (by rw [still]; decide)

/-- What the turns before a late sample leave as the sample finds it. -/
theorem beforeSample_fields :
    (s.beforeSample order late).settings = s.settings ∧ (s.beforeSample order late).scanner = s.scanner ∧
      (s.beforeSample order late).tone = s.tone ∧
      (s.beforeSample order late).node =
        (if .cells ∈ turnsBefore order late then s.transferred s.node else s.node) ∧
      (s.beforeSample order late).light =
        (if .light ∈ turnsBefore order late then s.lightSweep.light else s.light) ∧
      (s.beforeSample order late).tables =
        (if .tables ∈ turnsBefore order late then s.tables.activatePending else s.tables) ∧
      (.cells ∉ turnsBefore order late → (s.beforeSample order late).cells = s.cells) := by
  obtain ⟨tone, scanner, node, light, settings, tables, cells⟩ :=
    foldl_blocks s (turnsBefore order late) (turnsBefore_areBlocks order late) s.countSweep rfl
  exact ⟨settings, scanner, tone, node, light, tables, cells⟩

theorem beforeSample_state : (s.beforeSample order late).node.state = s.node.state ∧
    (s.beforeSample order late).node.time = s.node.time := by
  obtain ⟨_, _, _, node, _⟩ := beforeSample_fields order late s
  rw [node]
  split
  · exact transferred_state s s.node
  · exact ⟨rfl, rfl⟩

/-- A late sample wakes the node when the sample before the sweep start would. -/
theorem beforeSample_wakes (returns : Byte) :
    (s.beforeSample order late).sampleWakes returns = s.sampleWakes returns := by
  obtain ⟨settings, scanner, _⟩ := beforeSample_fields order late s
  have setting : ∀ n, (s.beforeSample order late).setting n = s.setting n := fun n =>
    congrArg (byteAt · (settingId n)) settings
  unfold State.sampleWakes State.threshold State.releaseCount State.pressCount
  rw [scanner, (beforeSample_state order late s).1, setting, setting]

/-- The turns before a late sample leave what the sample reads, when KEYMAP does not activate; for the channel, when TONE
does not either. -/
theorem beforeSample_alike (q : Prop) (u : State) (same : Alike False True s u)
    (keymap : inSet s.tables.pendingSet .keymap = false) (queue : q → (s.beforeSample order late).queue = u.queue) :
    Alike q (inSet s.tables.pendingSet .tone = false) (s.beforeSample order late) u := by
  obtain ⟨settings, scanner, tone, _, _, tables, _⟩ := beforeSample_fields order late s
  obtain ⟨state, time⟩ := beforeSample_state order late s
  refine ⟨settings.trans same.settings, (congrArg _ scanner).trans same.mode, (congrArg _ scanner).trans same.keys,
    (congrArg _ scanner).trans same.anyKey, state.trans same.state, time.trans same.time, ?_, queue,
    fun _ => tone.trans (same.tone trivial), fun still => ?_⟩
  · rw [tables, ← same.keymap]
    split
    · rw [keymap_activatePending _ keymap]
    · rfl
  · rw [tables, ← same.toneTable trivial]
    split
    · rw [tone_activatePending _ still]
    · rfl

/-! ## The end of a sweep start with a late sample -/

theorem afterSample_settings : (s.afterSample order late).settings = s.settings :=
  (takeSample_keeps _ _ _).2.2.1.trans (beforeSample_fields order late s).1

theorem afterTurns_settings : (s.afterTurns order late).settings = s.settings :=
  (foldl_takeTurn_keeps _ _ _).2.2.1.trans (afterSample_settings order late s)

/-- R18, R20, R89: Node Control is as when the sample is taken before the sweep start. -/
theorem afterTurns_node :
    (s.afterTurns order late).node = s.transferred (s.takeSample s.scanDrive late.returns).node := by
  obtain ⟨_, _, _, before, _, _, cells⟩ := beforeSample_fields order late s
  obtain ⟨_, _, after, _⟩ := foldl_blocks s _ (turnsAfter_areBlocks order late) _ (afterSample_settings order late s)
  have sampled : (s.afterSample order late).node = _ := (takeSample_wake_or_not _ _ _).1
  rw [beforeSample_wakes] at sampled
  rw [(takeSample_wake_or_not s s.scanDrive late.returns).1]
  refine after.trans ?_
  rcases turn_onOneSide order late .cells nofun with ⟨first, notAfter⟩ | ⟨notBefore, last⟩
  · rw [if_pos first] at before
    rw [if_neg notAfter, sampled, before]
    unfold State.transferred
    cases s.sampleWakes late.returns <;> cases s.cells.pendingValid <;> rfl
  · rw [if_neg notBefore] at before
    have pending : (s.afterSample order late).cells = s.cells :=
      (takeSample_keeps _ _ _).2.2.2.1.trans (cells notBefore)
    rw [if_pos last, sampled, before]
    unfold State.transferred
    rw [pending]

/-- A measurement that a wake begins in PERIOD, or not at all, has no window. -/
theorem wokenLight_noWindow (u : LightUnit) (noWindow : s.setting .lightMode ≠ 2) :
    (s.wokenLight u).state = .stopped ∨ (s.wokenLight u).state = .edgeWait := by
  unfold State.wokenLight LightUnit.start
  rw [if_neg noWindow]
  split
  · exact .inl rfl
  · split
    · exact .inr rfl
    · exact .inl rfl

/-- R118, R121: the measurement is as when the sample is taken before the sweep start, unless the wake begins a window
or finds a measurement. -/
theorem afterTurns_light
    (still : s.sampleWakes late.returns = true → s.light.state = .stopped ∧ s.setting .lightMode ≠ 2) :
    (s.afterTurns order late).light = (s.takeSample s.scanDrive late.returns).lightSweep.light := by
  obtain ⟨settings, _, _, _, before, _⟩ := beforeSample_fields order late s
  obtain ⟨_, _, _, after, _⟩ := foldl_blocks s _ (turnsAfter_areBlocks order late) _ (afterSample_settings order late s)
  have mode : (s.beforeSample order late).setting .lightMode = s.setting .lightMode :=
    congrArg (byteAt · (settingId .lightMode)) settings
  have sampled : (s.afterSample order late).light = _ := (takeSample_wake_or_not _ _ _).2
  rw [beforeSample_wakes] at sampled
  have first := (takeSample_wake_or_not s s.scanDrive late.returns).2
  obtain ⟨_, _, settings', _, tables', _⟩ := takeSample_keeps s s.scanDrive late.returns
  rw [lightSweep_congr (s.takeSample s.scanDrive late.returns)
    (s.withLight (s.takeSample s.scanDrive late.returns).light) rfl settings' tables', first]
  refine after.trans ?_
  rcases turn_onOneSide order late .light nofun with ⟨early, notAfter⟩ | ⟨notBefore, last⟩
  · rw [if_pos early] at before
    rw [if_neg notAfter, sampled, before]
    by_cases wakes : s.sampleWakes late.returns = true
    · obtain ⟨stopped, noWindow⟩ := still wakes
      rw [if_pos wakes, if_pos wakes, (sweepStarts_boundTheWindows s).1 (.inl stopped)]
      unfold State.wokenLight
      rw [mode]
      exact ((sweepStarts_boundTheWindows (s.withLight (s.wokenLight s.light))).1
        ((wokenLight_noWindow s s.light noWindow).imp_right .inl)).symm
    · rw [if_neg wakes, if_neg wakes]
      rfl
  · rw [if_neg notBefore] at before
    rw [if_pos last, sampled, before]
    unfold State.wokenLight
    rw [mode]

theorem afterTurns_tone : (s.afterTurns order late).tone = (s.afterSample order late).tone :=
  (foldl_blocks s _ (turnsAfter_areBlocks order late) _ (afterSample_settings order late s)).1

theorem afterTurns_scanner : (s.afterTurns order late).scanner = (s.afterSample order late).scanner :=
  (foldl_blocks s _ (turnsAfter_areBlocks order late) _ (afterSample_settings order late s)).2.1

/-! ## What the sweep start leaves -/

/-- Node Control and the Light Sense Unit after a sweep start that does not sample in WAKE. -/
theorem sweepChanges_node (sample : Option LateSample) (quiet : sample = none ∨ s.scanner.mode ≠ .wake) :
    (s.sweepChanges (sweepTurns order sample)).node = s.transferred s.node ∧
      (s.sweepChanges (sweepTurns order sample)).light = s.lightSweep.light := by
  cases sample with
  | none =>
    obtain ⟨_, light, node, _⟩ := sweepChanges_taken s order
    exact ⟨node, light⟩
  | some l =>
    have notWake := quiet.resolve_left nofun
    obtain ⟨node, light⟩ := takeSample_leaves s s.scanDrive l.returns notWake
    obtain ⟨_, _, settings, _, tables, _⟩ := takeSample_keeps s s.scanDrive l.returns
    have run := foldl_sweepTurns_late order l s
    refine ⟨(congrArg State.node run).trans ?_, (congrArg State.light run).trans ?_⟩
    · rw [afterTurns_node, node]
    · rw [afterTurns_light order l s fun wakes => absurd (sampleWakes_mode wakes).1 notWake]
      exact lightSweep_congr _ _ light settings tables

theorem sweepChanges_tone (sample : Option LateSample) (quiet : sample = none ∨ s.scanner.mode ≠ .full) :
    (s.sweepChanges (sweepTurns order sample)).tone = s.tone := by
  cases sample with
  | none => exact (sweepChanges_taken s order).1
  | some l =>
    obtain ⟨_, scanner, tone, _⟩ := beforeSample_fields order l s
    have notFull : (s.beforeSample order l).scanner.mode ≠ .full := by rw [scanner]; exact quiet.resolve_left nofun
    refine (congrArg State.tone (foldl_sweepTurns_late order l s)).trans ?_
    rw [afterTurns_tone]
    exact (takeSample_tone _ _ _ notFull).trans tone

end

/-- Settles O44: each block's turn has its own effect wherever the late sample stands among them. -/
theorem sweepStartTransfersAndActivates : Obligations.SweepStartTransfersAndActivates := by
  intro s order late ends
  refine ⟨_, execSweepStart_of_ends ends, ?_⟩
  obtain ⟨rst, supply, relay, engine, settings, pending, _, cells, _⟩ := sweepChanges_fields s order (s.lateSample late)
  have tables := sweepStart_tables s order (s.lateSample late)
  have taken : ∀ {P : Prop}, s.sampleTaken ∨ P → s.lateSample late = none ∨ P := fun h =>
    h.imp_left fun t => lateSample_taken t late
  refine ⟨cells, by rw [tables]; rfl, fun table => ?_, fun quiet => ?_, fun quiet => ?_, settings, relay, engine, rst,
    supply, pending⟩
  · rw [tables, bytes_activatePending, bytes_activatePending, generation_activatePending]
    cases inSet s.tables.pendingSet table <;> simp
  · obtain ⟨node, light⟩ := sweepChanges_node order s (s.lateSample late) (taken quiet)
    exact ⟨node.trans (transferred_eq s s.node), light⟩
  · exact sweepChanges_tone order s (s.lateSample late) (taken quiet)

end Sys2Proof.Machine
end

section
/-! The late sample at a sweep start beside the same sample taken before it: the blocks are left alike, the events stand
in the order of the turns. -/

namespace Sys2Proof.Machine

theorem alike_refl (q t : Prop) (s : State) : Alike q t s s :=
  ⟨rfl, rfl, rfl, rfl, rfl, rfl, rfl, fun _ => rfl, fun _ => rfl, fun _ => rfl⟩

theorem lateSample_senses {s : State} (running : s.inReset = false) (sense : s.drive.window = .sense)
    (late : Option LateSample) : s.lateSample late = late :=
  if_pos (by simp [State.senses, running, sense])

/-! ## The blocks with a late sample -/

section

variable (order : SubmitOrder) (late : LateSample) (s : State)

/-- The records after a late sample are those after the sample before the sweep start. -/
theorem afterSample_alike (keymap : inSet s.tables.pendingSet .keymap = false) :
    Alike False (inSet s.tables.pendingSet .tone = false) (s.afterSample order late)
      (s.takeSample s.scanDrive late.returns) :=
  (beforeSample_alike order late s False s (alike_refl _ _ s) keymap nofun).takeSample _ _

/-- The step position is the same too, when SCAN does not activate. -/
theorem afterSample_step (scan : inSet s.tables.pendingSet .scan = false) :
    (s.afterSample order late).scanner.step = (s.takeSample s.scanDrive late.returns).scanner.step := by
  obtain ⟨_, scanner, _, _, _, tables, _⟩ := beforeSample_fields order late s
  have schedule : (s.beforeSample order late).tables.scan = s.tables.scan := by
    rw [tables]
    split
    · exact scan_activatePending _ scan
    · rfl
  unfold State.afterSample
  rw [takeSample_step, takeSample_step, scanner, schedule]

theorem scanner_ext {x y : Scanner} (mode : x.mode = y.mode) (step : x.step = y.step) (keys : x.keys = y.keys)
    (anyKey : x.anyKey = y.anyKey) : x = y := by
  cases x; cases y; simp_all

/-- A SCAN activation does not look at the step position. -/
theorem restart_congr {x y : Scanner} (scan : Vector Byte 34) (mode : x.mode = y.mode) (keys : x.keys = y.keys)
    (anyKey : x.anyKey = y.anyKey) : x.restart scan = y.restart scan := by
  refine scanner_ext mode rfl ?_ anyKey
  unfold Scanner.restart
  simp only [keys]

/-- The state after KEY_SAMPLE at the end of the sense window. -/
def State.sampledBefore : State := (s.takeSample s.scanDrive late.returns).endWindow

/-- What KEY_SAMPLE leaves of what the sweep start takes from the other blocks. -/
theorem sampledBefore_keeps :
    (s.sampledBefore late).rstLow = s.rstLow ∧ (s.sampledBefore late).supplyOk = s.supplyOk ∧
      (s.sampledBefore late).settings = s.settings ∧ (s.sampledBefore late).cells = s.cells ∧
      (s.sampledBefore late).tables = s.tables ∧ (s.sampledBefore late).drive = { s.drive with window := .ended } ∧
      (s.sampledBefore late).relay = s.relay ∧ (s.sampledBefore late).engine = s.engine ∧
      (s.sampledBefore late).pending = s.pending := by
  obtain ⟨rst, supply, settings, cells, tables, drive, relay, engine, pending⟩ :=
    takeSample_keeps s s.scanDrive late.returns
  exact ⟨rst, supply, settings, cells, tables, congrArg (fun d => ({ d with window := .ended } : Drive)) drive, relay,
    engine, pending⟩

/-- R73 to R75: the Key Scanner's own changes come to the same. -/
theorem sweepChanges_late_scanner (keymap : inSet s.tables.pendingSet .keymap = false) :
    (s.sweepChanges (sweepTurns order (some late))).scanner =
      ((s.sampledBefore late).sweepChanges (sweepTurns order none)).scanner := by
  obtain ⟨_, _, _, taken⟩ := sweepChanges_taken (s.sampledBefore late) order
  obtain ⟨_, _, settings, _, tables, _⟩ := sampledBefore_keeps late s
  have alike := afterSample_alike order late s keymap
  have run : (s.sweepChanges (sweepTurns order (some late))).scanner =
      ((s.afterTurns order late).scanSweep (inSet s.tables.pendingSet .scan)).scanner := by
    unfold State.sweepChanges
    rw [foldl_sweepTurns_late]
  have schedule : (s.afterTurns order late).tables = s.tables.activatePending := by
    rw [← foldl_sweepTurns_late]
    exact (sweepChanges_fields s order (some late)).2.2.2.2.2.2.2.2
  have due : (s.afterTurns order late).modeDue = (s.sampledBefore late).modeDue := by
    have state : (s.afterTurns order late).node.state = (s.sampledBefore late).node.state := by
      rw [afterTurns_node]
      exact (transferred_state s _).1
    unfold State.modeDue State.setting
    rw [state, settings, afterTurns_settings]
  rw [run, taken, tables]
  unfold State.scanSweep
  rw [afterTurns_scanner, schedule, due]
  cases scan : inSet s.tables.pendingSet .scan with
  | true => exact congrArg (Scanner.enter · _) (restart_congr _ alike.mode alike.keys alike.anyKey)
  | false =>
    exact congrArg (Scanner.enter · _)
      (scanner_ext alike.mode (afterSample_step order late s scan) alike.keys alike.anyKey)

/-- Two states that agree on all but the queue and the window of the sweep that ends begin the same sweep. -/
theorem beginSweep_congr (a b : State) (rst : a.rstLow = b.rstLow) (supply : a.supplyOk = b.supplyOk)
    (relay : a.relay = b.relay) (node : a.node = b.node) (engine : a.engine = b.engine)
    (settings : a.settings = b.settings) (cells : a.cells = b.cells) (tables : a.tables = b.tables)
    (drive : ∃ window, a.drive = { b.drive with window := window }) (scanner : a.scanner = b.scanner)
    (light : a.light = b.light) (tone : a.tone = b.tone) (pending : a.pending = b.pending) :
    a.beginSweep = b.beginSweep.withQueue a.queue := by
  obtain ⟨window, drive⟩ := drive
  have same : a = (b.withQueue a.queue).withDrive { b.drive with window := window } := by
    cases a; cases b; simp_all [State.withQueue, State.withDrive]
  calc a.beginSweep
      = ((b.withQueue a.queue).withDrive { b.drive with window := window }).beginSweep := congrArg State.beginSweep same
    _ = b.beginSweep.withQueue a.queue := rfl

end

theorem lateSamples_changeTheOrderAlone : Claim.LateSamplesChangeTheOrderAlone := by
  intro s m u order late ends sense keymap tone wakes hm hu
  refine ⟨_, execSweepStart_of_ends ends, ?_⟩
  rw [lateSample_senses ends.1 sense]
  rw [execKeySample_of_senses ends.1 sense] at hm
  replace hm : s.sampledBefore late = m := Host.Outcome.next.inj hm
  subst hm
  obtain ⟨rst, supply, settings, cells, tables, drive, relay, engine, pending⟩ := sampledBefore_keeps late s
  have taken : (s.sampledBefore late).sampleTaken := congrArg Drive.window drive
  have endsToo : (s.sampledBefore late).sweepEnds none := by
    refine ⟨?_, ?_, .inl taken⟩
    · unfold State.inReset
      rw [rst, supply]
      exact ends.1
    · rw [drive]
      exact ends.2.1
  rw [exec_sweepStart endsToo hu, lateSample_taken taken]
  obtain ⟨rst', supply', relay', engine', settings', pending', drive', cells', tables'⟩ :=
    sweepChanges_fields s order (some late)
  obtain ⟨rst'', supply'', relay'', engine'', settings'', pending'', drive'', cells'', tables''⟩ :=
    sweepChanges_fields (s.sampledBefore late) order none
  obtain ⟨tone'', light'', node'', _⟩ := sweepChanges_taken (s.sampledBefore late) order
  have run := foldl_sweepTurns_late order late s
  have still : s.sampleWakes late.returns = true → s.light.state = .stopped ∧ s.setting .lightMode ≠ 2 := fun woken => by
    obtain ⟨wake, quiescent⟩ := sampleWakes_mode woken
    obtain ⟨sound, noWindow⟩ := wakes wake
    refine ⟨sound.mpr ?_, noWindow⟩
    unfold State.lightRuns
    rw [quiescent]
    rfl
  refine beginSweep_congr _ _ (rst'.trans (rst''.trans rst).symm) (supply'.trans (supply''.trans supply).symm)
    (relay'.trans (relay''.trans relay).symm) ?_ (engine'.trans (engine''.trans engine).symm)
    (settings'.trans (settings''.trans settings).symm) ?_ ?_ ⟨s.drive.window, ?_⟩
    (sweepChanges_late_scanner order late s keymap) ?_ ?_ (pending'.trans (pending''.trans pending).symm)
  · rw [node'', cells]
    exact (congrArg State.node run).trans (afterTurns_node order late s)
  · rw [cells', cells'', cells]
  · rw [tables', tables'', tables]
  · rw [drive', drive'', drive]
  · rw [light'']
    refine ((congrArg State.light run).trans (afterTurns_light order late s still)).trans ?_
    exact lightSweep_congr _ _ rfl rfl rfl
  · rw [tone'']
    refine ((congrArg State.tone run).trans (afterTurns_tone order late s)).trans ?_
    exact (afterSample_alike order late s keymap).tone tone

/-- Settles O48: without a late sample by the scanner's own part of the sweep start; a late sample reads what KEY_SAMPLE
reads, and its effect and the blocks' turns do not meet. -/
theorem sweepStartSetsTheScanMode : Obligations.SweepStartSetsTheScanMode :=
  ⟨scanMode_followsTheNode, lateSamples_changeTheOrderAlone⟩

/-! ## The events of a sweep start -/

/-- States whose submissions come to the same queue. -/
def submitAlike (a b : State) : Prop := a.node.state = b.node.state ∧ a.node.time = b.node.time ∧ a.queue = b.queue

theorem submitAlike_submitSome {a b : State} (alike : submitAlike a b) (event : Option (EventKind × Byte)) :
    submitAlike (a.submitSome event) (b.submitSome event) := by
  obtain ⟨state, time, queue⟩ := alike
  rw [submitSome_frame a, submitSome_frame b]
  refine ⟨state, time, ?_⟩
  cases event with
  | none => exact queue
  | some event =>
    change (a.submit _ _).queue = (b.submit _ _).queue
    unfold State.submit
    by_cases silent : a.node.state = .unaddressed
    · rw [if_pos silent, if_pos (state.symm.trans silent)]
      exact queue
    · rw [if_neg silent, if_neg fun other => silent (state.trans other)]
      change a.queue.take _ _ a.node.time = b.queue.take _ _ b.node.time
      rw [queue, time]

/-- The event that a block's turn in `x` submits at the end of the sweep of `ending`. -/
def State.turnEvent (ending x : State) : Turn → Option (EventKind × Byte)
  | .light => (x.withTables ending.tables).lightSweepEvent
  | .cells => x.shownEvent
  | .tables => x.activationEvent
  | .sample _ => none

/-- What a block's event is made of. -/
theorem turnEvent_congr {ending x y : State} {turn : Turn} (settings : x.settings = y.settings)
    (light : turn = .light → x.light = y.light) (cells : turn = .cells → x.cells = y.cells)
    (tables : turn = .tables → x.tables = y.tables) : ending.turnEvent x turn = ending.turnEvent y turn := by
  have setting : ∀ n, x.setting n = y.setting n := fun n => congrArg (byteAt · (settingId n)) settings
  have masked : ∀ bit, x.masked bit = y.masked bit := fun bit => congrArg (BitVec.getLsbD · bit) (setting .eventMask)
  cases turn with
  | light =>
    have sameLight := light rfl
    have closes : (x.withTables ending.tables).windowCloses = (y.withTables ending.tables).windowCloses := by
      change (x.light.state == .windowCount && x.light.windowSweeps + 1 == (x.setting .lightWindow).toNat) = _
      rw [sameLight, setting]
      rfl
    have level : (x.withTables ending.tables).levelEvent x.light.count =
        (y.withTables ending.tables).levelEvent y.light.count := by
      rw [sameLight]
      unfold State.levelEvent
      rw [show (x.withTables ending.tables).light = (y.withTables ending.tables).light from sameLight,
        show (x.withTables ending.tables).masked 0 = (y.withTables ending.tables).masked 0 from masked 0]
      rfl
    change (if (x.withTables ending.tables).windowCloses then (x.withTables ending.tables).levelEvent x.light.count
      else none) = _
    rw [closes, level]
    rfl
  | cells =>
    unfold State.turnEvent State.shownEvent
    simp only [cells rfl, masked]
  | tables =>
    unfold State.turnEvent State.activationEvent
    simp only [tables rfl, masked]
  | sample returns => rfl

theorem takeTurn_submitAlike {ending x y : State} {turn : Turn} (block : ∀ returns, turn ≠ .sample returns)
    (alike : submitAlike x y) : submitAlike (ending.takeTurn x turn) (y.submitSome (ending.turnEvent x turn)) := by
  cases turn with
  | light =>
    have swept : submitAlike (x.withTables ending.tables).lightSweep y := by
      rw [lightSweep_frame]
      exact alike
    exact submitAlike_submitSome swept _
  | cells =>
    obtain ⟨state, time, queue⟩ := alike
    have shown : submitAlike x.transfer y := by
      rw [transfer_frame, (transfer_fields x).2]
      refine ⟨?_, ?_, queue⟩
      · exact (transferred_state x x.node).1.trans state
      · exact (transferred_state x x.node).2.trans time
    exact submitAlike_submitSome shown _
  | tables => exact submitAlike_submitSome (a := x.activateTables) alike _
  | sample returns => exact absurd rfl (block returns)

/-- A block's turn leaves the events of the other blocks. -/
theorem turnEvent_takeTurn {ending x : State} {turn other : Turn} (block : ∀ returns, turn ≠ .sample returns)
    (settings : x.settings = ending.settings) (differs : turn ≠ other) :
    ending.turnEvent (ending.takeTurn x turn) other = ending.turnEvent x other := by
  obtain ⟨_, _, _, light⟩ := takeTurn_block x ending turn block settings
  refine turnEvent_congr (takeTurn_keeps x ending turn).2.2.1 (fun same => ?_) (fun same => ?_) (fun same => ?_)
  · exact light.trans (if_neg (same ▸ differs))
  · exact (takeTurn_cells x ending turn).trans (if_neg (same ▸ differs))
  · exact (takeTurn_tables x ending turn).trans (if_neg (same ▸ differs))

/-- The events of turns, submitted in their order. -/
def State.submitEvents (ending : State) (turns : List Turn) (u : State) : State :=
  turns.foldl (fun u turn => u.submitSome (ending.turnEvent ending turn)) u

theorem submitEvents_frame (ending u : State) (turns : List Turn) :
    ending.submitEvents turns u = u.withQueue (ending.submitEvents turns u).queue := by
  induction turns generalizing u with
  | nil => rfl
  | cons turn rest ih =>
    change ending.submitEvents rest (u.submitSome _) = u.withQueue (ending.submitEvents rest (u.submitSome _)).queue
    rw [ih (u.submitSome _), submitSome_frame u]
    rfl

/-- A run of blocks' turns submits its events in order. -/
theorem foldl_takeTurn_submitAlike (ending : State) (turns : List Turn) (blocks : areBlocks turns) (x y : State)
    (settings : x.settings = ending.settings)
    (events : ∀ turn ∈ turns, ending.turnEvent x turn = ending.turnEvent ending turn) (alike : submitAlike x y) :
    submitAlike (turns.foldl ending.takeTurn x) (ending.submitEvents turns y) := by
  induction turns generalizing x y with
  | nil => exact alike
  | cons turn rest ih =>
    obtain ⟨once, areBlock⟩ := blocks
    obtain ⟨absent, onceRest⟩ := List.nodup_cons.mp once
    have block := areBlock turn List.mem_cons_self
    refine ih ⟨onceRest, fun other h => areBlock other (List.mem_cons_of_mem _ h)⟩ _ _
      ((takeTurn_keeps x ending turn).2.2.1.trans settings) (fun other h => ?_) ?_
    · rw [turnEvent_takeTurn block settings fun same => absent (same ▸ h)]
      exact events other (List.mem_cons_of_mem _ h)
    · change submitAlike _ (y.submitSome (ending.turnEvent ending turn))
      rw [← events turn List.mem_cons_self]
      exact takeTurn_submitAlike block alike

theorem lightSweepEvent_submits (s u : State) :
    u.submitSome s.lightSweepEvent =
      let level := formLevel s.tables.light.active s.light.level s.light.count
      if s.light.state = .windowCount ∧ s.light.windowSweeps + 1 = (s.setting .lightWindow).toNat ∧
        level ≠ s.light.level ∧ (s.setting .eventMask).getLsbD 0 = true
      then u.submit .lightLevel (BitVec.ofNat 8 level) else u := by
  unfold State.lightSweepEvent
  simp only [windowCloses_iff, ← and_assoc (a := s.light.state = .windowCount)]
  by_cases closes : s.light.state = .windowCount ∧ s.light.windowSweeps + 1 = (s.setting .lightWindow).toNat
  · rw [if_pos closes, submitSome_levelEvent]
    simp only [closes, and_self, true_and]
  · rw [if_neg closes, if_neg fun h => closes h.1]
    rfl

theorem submitSome_ite (u : State) (c : Prop) [Decidable c] (kind : EventKind) (argument : Byte) :
    u.submitSome (if c then some (kind, argument) else none) = if c then u.submit kind argument else u := by
  split <;> rfl

/-- What the blocks submit is the events of their turns. -/
theorem submissions_eq (s : State) (order : SubmitOrder) :
    Claim.submissions s order = (blocksInOrder order).map fun turn u => u.submitSome (s.turnEvent s turn) := by
  have light : (fun u : State => u.submitSome (s.turnEvent s .light)) = _ := funext fun u => lightSweepEvent_submits s u
  have cells : (fun u : State => u.submitSome (s.turnEvent s .cells)) = _ := funext fun u => submitSome_ite u _ _ _
  have tables : (fun u : State => u.submitSome (s.turnEvent s .tables)) = _ := funext fun u => submitSome_ite u _ _ _
  cases order <;> simp only [blocksInOrder, List.map_cons, List.map_nil, light, cells, tables] <;> rfl

theorem foldl_submissions (s u : State) (turns : List Turn) :
    (turns.map fun turn (u : State) => u.submitSome (s.turnEvent s turn)).foldl (fun u submit => submit u) u =
      s.submitEvents turns u := List.foldl_map ..

theorem blocks_submitInOrder : Claim.BlocksSubmitInOrder := by
  intro s t order late ends taken h
  rw [exec_sweepStart ends h, lateSample_taken taken, submissions_eq, foldl_submissions]
  exact (foldl_takeTurn_submitAlike s (blocksInOrder order) (areBlocks_sublist order (List.Sublist.refl _)) s.countSweep s
    rfl (fun _ _ => turnEvent_congr rfl (fun _ => rfl) (fun _ => rfl) fun _ => rfl) ⟨rfl, rfl, rfl⟩).2.2

/-- A measurement with no window closes none. -/
theorem lightSweepEvent_noWindow {s : State} (noWindow : s.light.state ≠ .windowCount) : s.lightSweepEvent = none :=
  if_neg fun closes => noWindow ((windowCloses_iff s).mp closes).1

theorem wokenLight_notCounting (s : State) (u : LightUnit) : (s.wokenLight u).state ≠ .windowCount := by
  unfold State.wokenLight LightUnit.start LightUnit.stop
  split
  · nofun
  · split
    · nofun
    · split <;> nofun

/-- The events of the turns after a late sample are those of the sweep that ends. -/
theorem afterSample_events (s : State) (order : SubmitOrder) (late : LateSample)
    (still : s.sampleWakes late.returns = true → s.light.state = .stopped) (turn : Turn)
    (after : turn ∈ turnsAfter order late) :
    s.turnEvent (s.afterSample order late) turn = s.turnEvent s turn := by
  obtain ⟨_, _, _, _, light, tables, cells⟩ := beforeSample_fields order late s
  obtain ⟨_, _, _, sampledCells, sampledTables, _⟩ := takeSample_keeps (s.beforeSample order late) s.scanDrive late.returns
  have block := (turnsAfter_areBlocks order late).2 turn after
  have absent : turn ∉ turnsBefore order late :=
    ((turn_onOneSide order late turn block).resolve_left fun ⟨_, notAfter⟩ => notAfter after).1
  by_cases wakes : turn = .light ∧ s.sampleWakes late.returns = true
  · obtain ⟨isLight, woken⟩ := wakes
    subst isLight
    have sampled : (s.afterSample order late).light = _ := (takeSample_wake_or_not _ _ _).2
    rw [beforeSample_wakes, if_pos woken] at sampled
    refine (lightSweepEvent_noWindow ?_).trans (lightSweepEvent_noWindow ?_).symm
    · change (s.afterSample order late).light.state ≠ .windowCount
      rw [sampled]
      exact wokenLight_notCounting _ _
    · change s.light.state ≠ .windowCount
      rw [still woken]
      nofun
  · refine turnEvent_congr (afterSample_settings order late s) (fun same => ?_) (fun same => ?_) (fun same => ?_)
    · have sleeps : ¬s.sampleWakes late.returns = true := fun woken => wakes ⟨same, woken⟩
      have sampled : (s.afterSample order late).light = _ := (takeSample_wake_or_not _ _ _).2
      rw [beforeSample_wakes, if_neg sleeps] at sampled
      rw [sampled, light, if_neg (same ▸ absent)]
    · exact sampledCells.trans (cells (same ▸ absent))
    · exact sampledTables.trans (tables.trans (if_neg (same ▸ absent)))

theorem lateSamples_takeTheirTurn : Claim.LateSamplesTakeTheirTurn := by
  intro s t order late ends sense keymap sound h turns
  have before : (turns.take (late.after.val + 1)).foldl (fun u submit => submit u) s =
      s.submitEvents (turnsBefore order late) s := by
    rw [show turns = _ from submissions_eq s order, ← List.map_take]
    exact foldl_submissions s s _
  have after : ∀ m, (turns.drop (late.after.val + 1)).foldl (fun u submit => submit u) m =
      s.submitEvents (turnsAfter order late) m := fun m => by
    rw [show turns = _ from submissions_eq s order, ← List.map_drop]
    exact foldl_submissions s m _
  obtain ⟨_, _, told⟩ := foldl_takeTurn_submitAlike s _ (turnsBefore_areBlocks order late) s.countSweep s rfl
    (fun _ _ => turnEvent_congr rfl (fun _ => rfl) (fun _ => rfl) fun _ => rfl) ⟨rfl, rfl, rfl⟩
  have frame := submitEvents_frame s s (turnsBefore order late)
  rw [before]
  refine ⟨((s.submitEvents (turnsBefore order late) s).takeSample s.scanDrive late.returns).endWindow, ?_, ?_⟩
  · rw [frame]
    exact execKeySample_of_senses (s := s.withQueue _) ends.1 sense
  · have same : Alike False True s (s.submitEvents (turnsBefore order late) s) := by
      rw [frame]
      exact { alike_refl False True s with queue := nofun }
    have sampled := (beforeSample_alike order late s True _ same keymap fun _ => told).takeSample s.scanDrive late.returns
    have still : s.sampleWakes late.returns = true → s.light.state = .stopped := fun woken => by
      obtain ⟨wake, quiescent⟩ := sampleWakes_mode woken
      refine (sound wake).mpr ?_
      unfold State.lightRuns
      rw [quiescent]
      rfl
    rw [exec_sweepStart ends h, lateSample_senses ends.1 sense, after]
    change ((sweepTurns order (some late)).foldl s.takeTurn s.countSweep).queue = _
    rw [foldl_sweepTurns_late]
    have alike : submitAlike (s.afterSample order late)
        ((s.submitEvents (turnsBefore order late) s).takeSample s.scanDrive late.returns).endWindow :=
      ⟨sampled.state, sampled.time, sampled.queue trivial⟩
    exact (foldl_takeTurn_submitAlike s _ (turnsAfter_areBlocks order late) _ _ (afterSample_settings order late s)
      (afterSample_events s order late still) alike).2.2

/-- Settles O49: a turn submits its own block's event, which the other turns leave alone. -/
theorem sweepStartSubmitsItsEvents : Obligations.SweepStartSubmitsItsEvents :=
  ⟨blocks_submitInOrder, lateSamples_takeTheirTurn⟩

end Sys2Proof.Machine
end
